-- ==== Sys2Proof/Word.lean ====
section
/-! DEFINITION. The word of the block and the names of its parts (00_scope.md R5 `WORD`, R8, R9). -/

namespace Sys2Proof

/-- The 32-bit container of every fixed-point value, operand register, state word and command
(00_scope.md R5 `WORD`, R8). -/
abbrev Word := BitVec 32

/-- One byte of a serialised word (20_memory.md R62). -/
abbrev Byte := BitVec 8

/-- The number of an operand register, r0 to r15 (30_encoding.md R82). -/
abbrev Reg := BitVec 4

/-- A voice index, 0 to 7 (30_encoding.md R85). -/
abbrev VoiceIdx := BitVec 3

/-- `sint(w)` of 00_scope.md R9: the two's-complement value of a word. -/
abbrev sint (w : Word) : Int := w.toInt

/-- `uint(w)` of 00_scope.md R9: the unsigned value of a word. -/
abbrev uint (w : Word) : Nat := w.toNat

end Sys2Proof
end

