-- ==== Sys2Proof/Syntax.lean ====
section
/-! DEFINITION. The commands of the PDC command set, revision 1: one constructor per row of the opcode
table (30_encoding.md R88), with exactly the fields its format leaves free (R81 to R85). -/

namespace Sys2Proof

/-- The overflow mode M of a command (30_encoding.md R84). -/
inductive Ovf where
  | wrap
  | sat
  deriving DecidableEq, Repr

/-- The table that TLI names: IMM16[0] = 0 is SIN, 1 is EXP2 (30_encoding.md R85). -/
inductive InterpTable where
  | sin
  | exp2
  deriving DecidableEq, Repr

/-- One command. `rd`, `rs1`, `rs2`, `rs3` are register fields, `m` the overflow mode, `imm` the field
IMM16, `sh` IMM16[4:0], `vi` the voice index. The letters S, H, Q at the end of a name are the width
letters of the table's row. -/
inductive Instr where
  | nop
  | lil (rd : Reg) (imm : BitVec 16)
  | lih (rd : Reg) (imm : BitVec 16)
  | add (rd rs1 rs2 : Reg) (m : Ovf)
  | sub (rd rs1 rs2 : Reg) (m : Ovf)
  | addi (rd rs1 : Reg) (imm : BitVec 16)
  | mulS (rd rs1 rs2 : Reg) (m : Ovf)
  | mulH (rd rs1 rs2 : Reg) (m : Ovf)
  | mulQ (rd rs1 rs2 : Reg) (m : Ovf)
  | divS (rd rs1 rs2 : Reg) (m : Ovf)
  | divH (rd rs1 rs2 : Reg) (m : Ovf)
  | divQ (rd rs1 rs2 : Reg) (m : Ovf)
  | imul (rd rs1 rs2 : Reg) (m : Ovf)
  | idiv (rd rs1 rs2 : Reg) (m : Ovf)
  | ash (rd rs1 rs2 : Reg) (m : Ovf)
  | shli (rd rs1 : Reg) (sh : BitVec 5)
  | srai (rd rs1 : Reg) (sh : BitVec 5)
  | srli (rd rs1 : Reg) (sh : BitVec 5)
  | floorS (rd rs1 : Reg)
  | floorH (rd rs1 : Reg)
  | floorQ (rd rs1 : Reg)
  | fractS (rd rs1 : Reg)
  | fractH (rd rs1 : Reg)
  | fractQ (rd rs1 : Reg)
  | sqrtS (rd rs1 : Reg)
  | sqrtH (rd rs1 : Reg)
  | sqrtQ (rd rs1 : Reg)
  | cvtSS (rd rs1 : Reg) (m : Ovf)
  | cvtSH (rd rs1 : Reg) (m : Ovf)
  | cvtSQ (rd rs1 : Reg) (m : Ovf)
  | cvtHS (rd rs1 : Reg) (m : Ovf)
  | cvtHH (rd rs1 : Reg) (m : Ovf)
  | cvtHQ (rd rs1 : Reg) (m : Ovf)
  | cvtQS (rd rs1 : Reg) (m : Ovf)
  | cvtQH (rd rs1 : Reg) (m : Ovf)
  | cvtQQ (rd rs1 : Reg) (m : Ovf)
  | phaccS (rd rs1 rs2 : Reg)
  | phaccH (rd rs1 rs2 : Reg)
  | phaccQ (rd rs1 rs2 : Reg)
  | tliS (rd rs1 : Reg) (t : InterpTable)
  | tliH (rd rs1 : Reg) (t : InterpTable)
  | sinS (rd rs1 : Reg)
  | sinH (rd rs1 : Reg)
  | cosS (rd rs1 : Reg)
  | cosH (rd rs1 : Reg)
  | exp2S (rd rs1 : Reg) (m : Ovf)
  | exp2H (rd rs1 : Reg) (m : Ovf)
  | exp10S (rd rs1 : Reg) (m : Ovf)
  | exp10H (rd rs1 : Reg) (m : Ovf)
  | sq135S (rd rs1 : Reg)
  | sq135H (rd rs1 : Reg)
  | sq35S (rd rs1 : Reg)
  | sq35H (rd rs1 : Reg)
  | ntof (rd rs1 : Reg)
  | fton (rd rs1 : Reg)
  | romrdSin (rd rs1 : Reg)
  | romrdExp2 (rd rs1 : Reg)
  | romrdNote (rd rs1 : Reg)
  | db2g (rd rs1 : Reg) (m : Ovf)
  | g2db (rd rs1 : Reg) (m : Ovf)
  | ev2s (rd rs1 : Reg) (m : Ovf)
  | s2ev (rd rs1 : Reg) (m : Ovf)
  | vol2s (rd rs1 : Reg) (m : Ovf)
  | s2vol (rd rs1 : Reg) (m : Ovf)
  | p2b (rd rs1 : Reg) (m : Ovf)
  | p2f (rd rs1 : Reg) (m : Ovf)
  | p2q (rd rs1 : Reg) (m : Ovf)
  | p2st (rd rs1 : Reg) (m : Ovf)
  | rand (rd : Reg)
  | rseed (rs1 : Reg)
  | rget (rd : Reg)
  | etrig (vi : VoiceIdx)
  | eoff (vi : VoiceIdx)
  | eval (rd : Reg) (vi : VoiceIdx)
  | eadv (vi : VoiceIdx)
  | von (rs1 : Reg) (vi : VoiceIdx)
  | voff (vi : VoiceIdx)
  | vslide (rs1 : Reg) (vi : VoiceIdx)
  | vgetn (rd : Reg) (vi : VoiceIdx)
  | vphadv (rs1 : Reg) (vi : VoiceIdx)
  | noteon (rs1 rs2 rs3 : Reg)
  | noteoff (rs1 rs2 : Reg)
  | anoff
  | run (rd rs1 rs2 : Reg)
  | lds (rd rs1 : Reg) (imm : BitVec 16)
  | sts (rd rs1 : Reg) (imm : BitVec 16)
  | ldb (rd rs1 : Reg) (imm : BitVec 16)
  | stb (rd rs1 : Reg) (imm : BitVec 16)
  deriving DecidableEq, Repr

end Sys2Proof
end

