-- ==== Sys2Proof/WellFormed.lean ====
section
/-! DEFINITION. Which syntax trees are commands of the set. The fields' types hold every bound of
30_encoding.md R81 to R86 but one: VON reads four registers from RS1, so RS1 is at most 12 (R85). -/

namespace Sys2Proof

/-- VON's register quad RS1 .. RS1+3 lies inside r0 .. r15 (30_encoding.md R85, R87 step 5). -/
abbrev quadFits (rs1 : Reg) : Bool := decide (rs1.toNat ≤ 12)

/-- The command has an encoding (30_encoding.md R87). -/
def Instr.wf : Instr → Bool
  | .von rs1 _ => quadFits rs1
  | .nop | .lil _ _ | .lih _ _ | .add _ _ _ _ | .sub _ _ _ _ | .addi _ _ _ => true
  | .mulS _ _ _ _ | .mulH _ _ _ _ | .mulQ _ _ _ _ => true
  | .divS _ _ _ _ | .divH _ _ _ _ | .divQ _ _ _ _ => true
  | .imul _ _ _ _ | .idiv _ _ _ _ | .ash _ _ _ _ => true
  | .shli _ _ _ | .srai _ _ _ | .srli _ _ _ => true
  | .floorS _ _ | .floorH _ _ | .floorQ _ _ | .fractS _ _ | .fractH _ _ | .fractQ _ _ => true
  | .sqrtS _ _ | .sqrtH _ _ | .sqrtQ _ _ => true
  | .cvtSS _ _ _ | .cvtSH _ _ _ | .cvtSQ _ _ _ | .cvtHS _ _ _ | .cvtHH _ _ _ => true
  | .cvtHQ _ _ _ | .cvtQS _ _ _ | .cvtQH _ _ _ | .cvtQQ _ _ _ => true
  | .phaccS _ _ _ | .phaccH _ _ _ | .phaccQ _ _ _ => true
  | .tliS _ _ _ | .tliH _ _ _ | .sinS _ _ | .sinH _ _ | .cosS _ _ | .cosH _ _ => true
  | .exp2S _ _ _ | .exp2H _ _ _ | .exp10S _ _ _ | .exp10H _ _ _ => true
  | .sq135S _ _ | .sq135H _ _ | .sq35S _ _ | .sq35H _ _ | .ntof _ _ | .fton _ _ => true
  | .romrdSin _ _ | .romrdExp2 _ _ | .romrdNote _ _ => true
  | .db2g _ _ _ | .g2db _ _ _ | .ev2s _ _ _ | .s2ev _ _ _ | .vol2s _ _ _ => true
  | .s2vol _ _ _ | .p2b _ _ _ | .p2f _ _ _ | .p2q _ _ _ | .p2st _ _ _ => true
  | .rand _ | .rseed _ | .rget _ | .etrig _ | .eoff _ | .eval _ _ | .eadv _ => true
  | .voff _ | .vslide _ _ | .vgetn _ _ | .vphadv _ _ => true
  | .noteon _ _ _ | .noteoff _ _ | .anoff | .run _ _ _ => true
  | .lds _ _ _ | .sts _ _ _ | .ldb _ _ _ | .stb _ _ _ => true

end Sys2Proof
end

