-- ==== Sys2Proof/Decode.lean ====
section
/-! DEFINITION. The decoder of 30_encoding.md R87, total on every word and every byte list and rejecting
by name, and the encoder written from the same formats (R81 to R88). -/

namespace Sys2Proof

/-- Why a word is ILLEGAL: the step of 30_encoding.md R87 that it fails. -/
inductive DecodeError where
  /-- Step 1: OP is in no row of R88 (R89). -/
  | opcode
  /-- Step 2: the row does not admit this W (R83). -/
  | width
  /-- Step 3: M is not 0b00 or 0b01, or not 0b00 where the row has no M (R84). -/
  | overflowMode
  /-- Step 4: a must-be-zero bit, an unused register field or an unnamed bit of IMM16 is set (R85, R86). -/
  | mustBeZero
  /-- Step 5: CVT's TW is 0b11, ROMRD's table is 3 or CONV's FN is above 9 (R85). -/
  | subField
  /-- Step 5: VON's register quad passes r15 (R85). -/
  | quad
  /-- Fewer than four bytes stand where a command word should. -/
  | truncated
  deriving DecidableEq, Repr

/-- The field positions of 30_encoding.md R81 that every format shares: OP, W, RD, RS1 and the low
sixteen bits. -/
structure Fields where
  op : BitVec 6
  w : BitVec 2
  rd : Reg
  rs1 : Reg
  imm : BitVec 16
  deriving DecidableEq, Repr

/-- Take a word apart (30_encoding.md R81). -/
def Fields.ofWord (c : Word) : Fields where
  op := c.extractLsb' 26 6
  w := c.extractLsb' 24 2
  rd := c.extractLsb' 20 4
  rs1 := c.extractLsb' 16 4
  imm := c.extractLsb' 0 16

/-- Put a word together (30_encoding.md R81, R88 "Match values"). -/
def Fields.toWord (f : Fields) : Word :=
  f.op ++ f.w ++ f.rd ++ f.rs1 ++ f.imm

/-- RS2, bits [15:12] of formats R and T (30_encoding.md R81). -/
def Fields.rs2 (f : Fields) : Reg := f.imm.extractLsb' 12 4

/-- M, bits [11:10] of format R (30_encoding.md R81). -/
def Fields.m (f : Fields) : BitVec 2 := f.imm.extractLsb' 10 2

/-- Bits [9:0], zero in formats R and T (30_encoding.md R81). -/
def Fields.low (f : Fields) : BitVec 10 := f.imm.extractLsb' 0 10

/-- The overflow mode that an M field names; 0b10 and 0b11 name none (30_encoding.md R84). -/
def ovfOf (m : BitVec 2) : Option Ovf :=
  match m.toNat with
  | 0 => some .wrap
  | 1 => some .sat
  | _ => none

/-- The M field that names an overflow mode (30_encoding.md R84). -/
def ovfBits : Ovf → BitVec 2
  | .wrap => 0#2
  | .sat => 1#2

/-- Go on to `k` where a check of 30_encoding.md R87 holds, else reject with its name. -/
def need (ok : Bool) (e : DecodeError) (k : Except DecodeError Instr) : Except DecodeError Instr :=
  if ok then k else .error e

/-- Read an overflow mode, or reject (30_encoding.md R84). -/
def needOvf (m : BitVec 2) (k : Ovf → Except DecodeError Instr) : Except DecodeError Instr :=
  match ovfOf m with
  | some v => k v
  | none => .error .overflowMode

/-! Rows by admitted width (30_encoding.md R83, R88). -/

/-- Only W = 0b00 is admitted. -/
def Fields.byW1 (f : Fields) (kS : Except DecodeError Instr) : Except DecodeError Instr :=
  match f.w.toNat with
  | 0 => kS
  | _ => .error .width

/-- W = 0b00 and 0b01 are admitted. -/
def Fields.byW2 (f : Fields) (kS kH : Except DecodeError Instr) : Except DecodeError Instr :=
  match f.w.toNat with
  | 0 => kS
  | 1 => kH
  | _ => .error .width

/-- W = 0b00, 0b01 and 0b10 are admitted. -/
def Fields.byW3 (f : Fields) (kS kH kQ : Except DecodeError Instr) : Except DecodeError Instr :=
  match f.w.toNat with
  | 0 => kS
  | 1 => kH
  | 2 => kQ
  | _ => .error .width

/-! The formats, with the fields each leaves free (30_encoding.md R81, R85, R88). -/

/-- Format N: no operand. -/
def Fields.fmtN1 (f : Fields) (i : Instr) : Except DecodeError Instr :=
  need (f.rd == 0 && f.rs1 == 0 && f.imm == 0) .mustBeZero (.ok i)

/-- Format R, three registers and M. -/
def Fields.fmtR3M (f : Fields) (k : Reg → Reg → Reg → Ovf → Instr) : Except DecodeError Instr :=
  needOvf f.m fun m => need (f.low == 0) .mustBeZero (.ok (k f.rd f.rs1 f.rs2 m))

/-- Format R, three registers, no M. -/
def Fields.fmtR3 (f : Fields) (k : Reg → Reg → Reg → Instr) : Except DecodeError Instr :=
  need (f.m == 0) .overflowMode (need (f.low == 0) .mustBeZero (.ok (k f.rd f.rs1 f.rs2)))

/-- Format R, RD and RS1 and M. -/
def Fields.fmtR2M (f : Fields) (k : Reg → Reg → Ovf → Instr) : Except DecodeError Instr :=
  needOvf f.m fun m => need (f.rs2 == 0 && f.low == 0) .mustBeZero (.ok (k f.rd f.rs1 m))

/-- Format R, RD and RS1, no M. -/
def Fields.fmtR2 (f : Fields) (k : Reg → Reg → Instr) : Except DecodeError Instr :=
  need (f.m == 0) .overflowMode (need (f.rs2 == 0 && f.low == 0) .mustBeZero (.ok (k f.rd f.rs1)))

/-- Format R, RD alone (RAND, RGET). -/
def Fields.fmtRd (f : Fields) (k : Reg → Instr) : Except DecodeError Instr :=
  need (f.m == 0) .overflowMode
    (need (f.rs1 == 0 && f.rs2 == 0 && f.low == 0) .mustBeZero (.ok (k f.rd)))

/-- Format R, RS1 alone (RSEED). -/
def Fields.fmtRs1 (f : Fields) (k : Reg → Instr) : Except DecodeError Instr :=
  need (f.m == 0) .overflowMode
    (need (f.rd == 0 && f.rs2 == 0 && f.low == 0) .mustBeZero (.ok (k f.rs1)))

/-- Format R, RS1 and RS2 (NOTEOFF). -/
def Fields.fmtRs12 (f : Fields) (k : Reg → Reg → Instr) : Except DecodeError Instr :=
  need (f.m == 0) .overflowMode (need (f.rd == 0 && f.low == 0) .mustBeZero (.ok (k f.rs1 f.rs2)))

/-- Format T: three sources; bits [23:20] name RS3 (NOTEON). -/
def Fields.fmtT (f : Fields) (k : Reg → Reg → Reg → Instr) : Except DecodeError Instr :=
  need (f.m == 0 && f.low == 0) .mustBeZero (.ok (k f.rs1 f.rs2 f.rd))

/-- Format I, RD and IMM16 (LIL, LIH). -/
def Fields.fmtIRd (f : Fields) (k : Reg → BitVec 16 → Instr) : Except DecodeError Instr :=
  need (f.rs1 == 0) .mustBeZero (.ok (k f.rd f.imm))

/-- Format I, RD, RS1 and IMM16. -/
def Fields.fmtI (f : Fields) (k : Reg → Reg → BitVec 16 → Instr) : Except DecodeError Instr :=
  .ok (k f.rd f.rs1 f.imm)

/-- Format I with a shift amount IMM16[4:0]. -/
def Fields.fmtSh (f : Fields) (k : Reg → Reg → BitVec 5 → Instr) : Except DecodeError Instr :=
  need (f.imm.extractLsb' 5 11 == 0) .mustBeZero (.ok (k f.rd f.rs1 (f.imm.extractLsb' 0 5)))

/-- CVT: M = IMM16[3:2], TW = IMM16[1:0]. -/
def Fields.fmtCvt (f : Fields) (kS kH kQ : Reg → Reg → Ovf → Instr) : Except DecodeError Instr :=
  needOvf (f.imm.extractLsb' 2 2) fun m => need (f.imm.extractLsb' 4 12 == 0) .mustBeZero
    (match (f.imm.extractLsb' 0 2).toNat with
     | 0 => .ok (kS f.rd f.rs1 m)
     | 1 => .ok (kH f.rd f.rs1 m)
     | 2 => .ok (kQ f.rd f.rs1 m)
     | _ => .error .subField)

/-- TLI: table = IMM16[0]. -/
def Fields.fmtTli (f : Fields) (k : Reg → Reg → InterpTable → Instr) : Except DecodeError Instr :=
  need (f.imm.extractLsb' 1 15 == 0) .mustBeZero
    (.ok (k f.rd f.rs1 (if f.imm.extractLsb' 0 1 == 0 then .sin else .exp2)))

/-- ROMRD: table = IMM16[1:0], 3 is illegal. -/
def Fields.fmtRom (f : Fields) (kS kE kN : Reg → Reg → Instr) : Except DecodeError Instr :=
  need (f.imm.extractLsb' 2 14 == 0) .mustBeZero
    (match (f.imm.extractLsb' 0 2).toNat with
     | 0 => .ok (kS f.rd f.rs1)
     | 1 => .ok (kE f.rd f.rs1)
     | 2 => .ok (kN f.rd f.rs1)
     | _ => .error .subField)

/-- CONV: FN = IMM16[3:0], M = IMM16[5:4] (43_conversions.md R190, R201). -/
def Fields.fmtConv (f : Fields) : Except DecodeError Instr :=
  needOvf (f.imm.extractLsb' 4 2) fun m => need (f.imm.extractLsb' 6 10 == 0) .mustBeZero
    (match (f.imm.extractLsb' 0 4).toNat with
     | 0 => .ok (.db2g f.rd f.rs1 m)
     | 1 => .ok (.g2db f.rd f.rs1 m)
     | 2 => .ok (.ev2s f.rd f.rs1 m)
     | 3 => .ok (.s2ev f.rd f.rs1 m)
     | 4 => .ok (.vol2s f.rd f.rs1 m)
     | 5 => .ok (.s2vol f.rd f.rs1 m)
     | 6 => .ok (.p2b f.rd f.rs1 m)
     | 7 => .ok (.p2f f.rd f.rs1 m)
     | 8 => .ok (.p2q f.rd f.rs1 m)
     | 9 => .ok (.p2st f.rd f.rs1 m)
     | _ => .error .subField)

/-- VI, bits [2:0] of format V. -/
def Fields.vi (f : Fields) : VoiceIdx := f.imm.extractLsb' 0 3

/-- Format V without a register. -/
def Fields.fmtV (f : Fields) (k : VoiceIdx → Instr) : Except DecodeError Instr :=
  need (f.rd == 0 && f.rs1 == 0 && f.imm.extractLsb' 3 13 == 0) .mustBeZero (.ok (k f.vi))

/-- Format V with RD. -/
def Fields.fmtVRd (f : Fields) (k : Reg → VoiceIdx → Instr) : Except DecodeError Instr :=
  need (f.rs1 == 0 && f.imm.extractLsb' 3 13 == 0) .mustBeZero (.ok (k f.rd f.vi))

/-- Format V with RS1. -/
def Fields.fmtVRs1 (f : Fields) (k : Reg → VoiceIdx → Instr) : Except DecodeError Instr :=
  need (f.rd == 0 && f.imm.extractLsb' 3 13 == 0) .mustBeZero (.ok (k f.rs1 f.vi))

/-- Format V with the quad RS1 .. RS1+3 (VON). -/
def Fields.fmtVQuad (f : Fields) (k : Reg → VoiceIdx → Instr) : Except DecodeError Instr :=
  need (f.rd == 0 && f.imm.extractLsb' 3 13 == 0) .mustBeZero
    (need (quadFits f.rs1) .quad (.ok (k f.rs1 f.vi)))

/-- The opcode map (30_encoding.md R88). -/
def decodeFields (f : Fields) : Except DecodeError Instr :=
  match f.op.toNat with
  | 0x01 => f.byW1 (f.fmtN1 .nop)
  | 0x02 => f.byW1 (f.fmtIRd .lil)
  | 0x03 => f.byW1 (f.fmtIRd .lih)
  | 0x04 => f.byW1 (f.fmtR3M .add)
  | 0x05 => f.byW1 (f.fmtR3M .sub)
  | 0x06 => f.byW1 (f.fmtI .addi)
  | 0x07 => f.byW3 (f.fmtR3M .mulS) (f.fmtR3M .mulH) (f.fmtR3M .mulQ)
  | 0x08 => f.byW3 (f.fmtR3M .divS) (f.fmtR3M .divH) (f.fmtR3M .divQ)
  | 0x09 => f.byW1 (f.fmtR3M .imul)
  | 0x0A => f.byW1 (f.fmtR3M .idiv)
  | 0x0B => f.byW1 (f.fmtR3M .ash)
  | 0x0C => f.byW1 (f.fmtSh .shli)
  | 0x0D => f.byW1 (f.fmtSh .srai)
  | 0x0E => f.byW1 (f.fmtSh .srli)
  | 0x0F => f.byW3 (f.fmtR2 .floorS) (f.fmtR2 .floorH) (f.fmtR2 .floorQ)
  | 0x10 => f.byW3 (f.fmtR2 .fractS) (f.fmtR2 .fractH) (f.fmtR2 .fractQ)
  | 0x11 => f.byW3 (f.fmtR2 .sqrtS) (f.fmtR2 .sqrtH) (f.fmtR2 .sqrtQ)
  | 0x12 => f.byW3 (f.fmtCvt .cvtSS .cvtSH .cvtSQ) (f.fmtCvt .cvtHS .cvtHH .cvtHQ) (f.fmtCvt .cvtQS .cvtQH .cvtQQ)
  | 0x13 => f.byW3 (f.fmtR3 .phaccS) (f.fmtR3 .phaccH) (f.fmtR3 .phaccQ)
  | 0x14 => f.byW2 (f.fmtTli .tliS) (f.fmtTli .tliH)
  | 0x15 => f.byW2 (f.fmtR2 .sinS) (f.fmtR2 .sinH)
  | 0x16 => f.byW2 (f.fmtR2 .cosS) (f.fmtR2 .cosH)
  | 0x17 => f.byW2 (f.fmtR2M .exp2S) (f.fmtR2M .exp2H)
  | 0x18 => f.byW2 (f.fmtR2M .exp10S) (f.fmtR2M .exp10H)
  | 0x19 => f.byW2 (f.fmtR2 .sq135S) (f.fmtR2 .sq135H)
  | 0x1A => f.byW2 (f.fmtR2 .sq35S) (f.fmtR2 .sq35H)
  | 0x1B => f.byW1 (f.fmtR2 .ntof)
  | 0x1C => f.byW1 (f.fmtR2 .fton)
  | 0x1D => f.byW1 (f.fmtRom .romrdSin .romrdExp2 .romrdNote)
  | 0x1E => f.byW1 f.fmtConv
  | 0x20 => f.byW1 (f.fmtRd .rand)
  | 0x21 => f.byW1 (f.fmtRs1 .rseed)
  | 0x22 => f.byW1 (f.fmtRd .rget)
  | 0x24 => f.byW1 (f.fmtV .etrig)
  | 0x25 => f.byW1 (f.fmtV .eoff)
  | 0x26 => f.byW1 (f.fmtVRd .eval)
  | 0x27 => f.byW1 (f.fmtV .eadv)
  | 0x2A => f.byW1 (f.fmtVQuad .von)
  | 0x2B => f.byW1 (f.fmtV .voff)
  | 0x2C => f.byW1 (f.fmtVRs1 .vslide)
  | 0x2D => f.byW1 (f.fmtVRd .vgetn)
  | 0x2F => f.byW1 (f.fmtVRs1 .vphadv)
  | 0x30 => f.byW1 (f.fmtT .noteon)
  | 0x31 => f.byW1 (f.fmtRs12 .noteoff)
  | 0x32 => f.byW1 (f.fmtN1 .anoff)
  | 0x33 => f.byW1 (f.fmtR3 .run)
  | 0x38 => f.byW1 (f.fmtI .lds)
  | 0x39 => f.byW1 (f.fmtI .sts)
  | 0x3A => f.byW1 (f.fmtI .ldb)
  | 0x3B => f.byW1 (f.fmtI .stb)
  | _ => .error .opcode

/-- 30_encoding.md R87: a word is one command, or ILLEGAL. -/
def decode (c : Word) : Except DecodeError Instr :=
  decodeFields (Fields.ofWord c)

/-! The encoder. -/

/-- IMM16 of a format R word (30_encoding.md R81). -/
def immR (rs2 : Reg) (m : BitVec 2) : BitVec 16 := rs2 ++ m ++ 0#10

/-- Format N: no operand (30_encoding.md R81, R88). -/
def encN1 (op : BitVec 6) (w : BitVec 2) : Fields := ⟨op, w, 0, 0, 0⟩

/-- Format R with RD, RS1, RS2 and M. -/
def encR3M (op : BitVec 6) (w : BitVec 2) (rd rs1 rs2 : Reg) (m : Ovf) : Fields :=
  ⟨op, w, rd, rs1, immR rs2 (ovfBits m)⟩

/-- Format R with RD, RS1 and RS2. -/
def encR3 (op : BitVec 6) (w : BitVec 2) (rd rs1 rs2 : Reg) : Fields := ⟨op, w, rd, rs1, immR rs2 0⟩

/-- Format R with RD, RS1 and M. -/
def encR2M (op : BitVec 6) (w : BitVec 2) (rd rs1 : Reg) (m : Ovf) : Fields :=
  ⟨op, w, rd, rs1, immR 0 (ovfBits m)⟩

/-- Format R with RD and RS1. -/
def encR2 (op : BitVec 6) (w : BitVec 2) (rd rs1 : Reg) : Fields := ⟨op, w, rd, rs1, 0⟩

/-- Format R with RD alone. -/
def encRd (op : BitVec 6) (w : BitVec 2) (rd : Reg) : Fields := ⟨op, w, rd, 0, 0⟩

/-- Format R with RS1 alone. -/
def encRs1 (op : BitVec 6) (w : BitVec 2) (rs1 : Reg) : Fields := ⟨op, w, 0, rs1, 0⟩

/-- Format R with RS1 and RS2. -/
def encRs12 (op : BitVec 6) (w : BitVec 2) (rs1 rs2 : Reg) : Fields := ⟨op, w, 0, rs1, immR rs2 0⟩

/-- Format T: RS3 stands in the field RD. -/
def encT (op : BitVec 6) (w : BitVec 2) (rs1 rs2 rs3 : Reg) : Fields := ⟨op, w, rs3, rs1, immR rs2 0⟩

/-- Format I with RD and IMM16. -/
def encIRd (op : BitVec 6) (w : BitVec 2) (rd : Reg) (imm : BitVec 16) : Fields := ⟨op, w, rd, 0, imm⟩

/-- Format I with RD, RS1 and IMM16. -/
def encI (op : BitVec 6) (w : BitVec 2) (rd rs1 : Reg) (imm : BitVec 16) : Fields :=
  ⟨op, w, rd, rs1, imm⟩

/-- A shift: the count in IMM16[4:0] (30_encoding.md R85). -/
def encSh (op : BitVec 6) (w : BitVec 2) (rd rs1 : Reg) (sh : BitVec 5) : Fields :=
  ⟨op, w, rd, rs1, 0#11 ++ sh⟩

/-- CVT: M and TW in IMM16 (30_encoding.md R85). -/
def encCvt (w : BitVec 2) (rd rs1 : Reg) (m : Ovf) (tw : BitVec 2) : Fields :=
  ⟨0x12#6, w, rd, rs1, 0#12 ++ ovfBits m ++ tw⟩

/-- TLI: the table in IMM16[0] (30_encoding.md R85). -/
def encTli (op : BitVec 6) (w : BitVec 2) (rd rs1 : Reg) (t : InterpTable) : Fields :=
  ⟨op, w, rd, rs1, 0#15 ++ (match t with | .sin => 0#1 | .exp2 => 1#1)⟩

/-- ROMRD: the table in IMM16[1:0] (30_encoding.md R85). -/
def encRom (rd rs1 : Reg) (table : BitVec 2) : Fields := ⟨0x1D#6, 0, rd, rs1, 0#14 ++ table⟩

/-- CONV: M and FN in IMM16 (30_encoding.md R85). -/
def encConv (rd rs1 : Reg) (m : Ovf) (fn : BitVec 4) : Fields :=
  ⟨0x1E#6, 0, rd, rs1, 0#10 ++ ovfBits m ++ fn⟩

/-- Format V with the voice index alone. -/
def encV (op : BitVec 6) (w : BitVec 2) (vi : VoiceIdx) : Fields := ⟨op, w, 0, 0, 0#13 ++ vi⟩

/-- Format V with RD. -/
def encVRd (op : BitVec 6) (w : BitVec 2) (rd : Reg) (vi : VoiceIdx) : Fields :=
  ⟨op, w, rd, 0, 0#13 ++ vi⟩

/-- Format V with RS1. -/
def encVRs1 (op : BitVec 6) (w : BitVec 2) (rs1 : Reg) (vi : VoiceIdx) : Fields :=
  ⟨op, w, 0, rs1, 0#13 ++ vi⟩

/-- The fields of a command's word (30_encoding.md R81, R85, R88). -/
def encodeFields : Instr → Fields
  | .nop => encN1 0x01#6 0#2
  | .lil rd imm => encIRd 0x02#6 0#2 rd imm
  | .lih rd imm => encIRd 0x03#6 0#2 rd imm
  | .add rd rs1 rs2 m => encR3M 0x04#6 0#2 rd rs1 rs2 m
  | .sub rd rs1 rs2 m => encR3M 0x05#6 0#2 rd rs1 rs2 m
  | .addi rd rs1 imm => encI 0x06#6 0#2 rd rs1 imm
  | .mulS rd rs1 rs2 m => encR3M 0x07#6 0#2 rd rs1 rs2 m
  | .mulH rd rs1 rs2 m => encR3M 0x07#6 1#2 rd rs1 rs2 m
  | .mulQ rd rs1 rs2 m => encR3M 0x07#6 2#2 rd rs1 rs2 m
  | .divS rd rs1 rs2 m => encR3M 0x08#6 0#2 rd rs1 rs2 m
  | .divH rd rs1 rs2 m => encR3M 0x08#6 1#2 rd rs1 rs2 m
  | .divQ rd rs1 rs2 m => encR3M 0x08#6 2#2 rd rs1 rs2 m
  | .imul rd rs1 rs2 m => encR3M 0x09#6 0#2 rd rs1 rs2 m
  | .idiv rd rs1 rs2 m => encR3M 0x0A#6 0#2 rd rs1 rs2 m
  | .ash rd rs1 rs2 m => encR3M 0x0B#6 0#2 rd rs1 rs2 m
  | .shli rd rs1 sh => encSh 0x0C#6 0#2 rd rs1 sh
  | .srai rd rs1 sh => encSh 0x0D#6 0#2 rd rs1 sh
  | .srli rd rs1 sh => encSh 0x0E#6 0#2 rd rs1 sh
  | .floorS rd rs1 => encR2 0x0F#6 0#2 rd rs1
  | .floorH rd rs1 => encR2 0x0F#6 1#2 rd rs1
  | .floorQ rd rs1 => encR2 0x0F#6 2#2 rd rs1
  | .fractS rd rs1 => encR2 0x10#6 0#2 rd rs1
  | .fractH rd rs1 => encR2 0x10#6 1#2 rd rs1
  | .fractQ rd rs1 => encR2 0x10#6 2#2 rd rs1
  | .sqrtS rd rs1 => encR2 0x11#6 0#2 rd rs1
  | .sqrtH rd rs1 => encR2 0x11#6 1#2 rd rs1
  | .sqrtQ rd rs1 => encR2 0x11#6 2#2 rd rs1
  | .cvtSS rd rs1 m => encCvt 0#2 rd rs1 m 0#2
  | .cvtSH rd rs1 m => encCvt 0#2 rd rs1 m 1#2
  | .cvtSQ rd rs1 m => encCvt 0#2 rd rs1 m 2#2
  | .cvtHS rd rs1 m => encCvt 1#2 rd rs1 m 0#2
  | .cvtHH rd rs1 m => encCvt 1#2 rd rs1 m 1#2
  | .cvtHQ rd rs1 m => encCvt 1#2 rd rs1 m 2#2
  | .cvtQS rd rs1 m => encCvt 2#2 rd rs1 m 0#2
  | .cvtQH rd rs1 m => encCvt 2#2 rd rs1 m 1#2
  | .cvtQQ rd rs1 m => encCvt 2#2 rd rs1 m 2#2
  | .phaccS rd rs1 rs2 => encR3 0x13#6 0#2 rd rs1 rs2
  | .phaccH rd rs1 rs2 => encR3 0x13#6 1#2 rd rs1 rs2
  | .phaccQ rd rs1 rs2 => encR3 0x13#6 2#2 rd rs1 rs2
  | .tliS rd rs1 t => encTli 0x14#6 0#2 rd rs1 t
  | .tliH rd rs1 t => encTli 0x14#6 1#2 rd rs1 t
  | .sinS rd rs1 => encR2 0x15#6 0#2 rd rs1
  | .sinH rd rs1 => encR2 0x15#6 1#2 rd rs1
  | .cosS rd rs1 => encR2 0x16#6 0#2 rd rs1
  | .cosH rd rs1 => encR2 0x16#6 1#2 rd rs1
  | .exp2S rd rs1 m => encR2M 0x17#6 0#2 rd rs1 m
  | .exp2H rd rs1 m => encR2M 0x17#6 1#2 rd rs1 m
  | .exp10S rd rs1 m => encR2M 0x18#6 0#2 rd rs1 m
  | .exp10H rd rs1 m => encR2M 0x18#6 1#2 rd rs1 m
  | .sq135S rd rs1 => encR2 0x19#6 0#2 rd rs1
  | .sq135H rd rs1 => encR2 0x19#6 1#2 rd rs1
  | .sq35S rd rs1 => encR2 0x1A#6 0#2 rd rs1
  | .sq35H rd rs1 => encR2 0x1A#6 1#2 rd rs1
  | .ntof rd rs1 => encR2 0x1B#6 0#2 rd rs1
  | .fton rd rs1 => encR2 0x1C#6 0#2 rd rs1
  | .romrdSin rd rs1 => encRom rd rs1 0#2
  | .romrdExp2 rd rs1 => encRom rd rs1 1#2
  | .romrdNote rd rs1 => encRom rd rs1 2#2
  | .db2g rd rs1 m => encConv rd rs1 m 0#4
  | .g2db rd rs1 m => encConv rd rs1 m 1#4
  | .ev2s rd rs1 m => encConv rd rs1 m 2#4
  | .s2ev rd rs1 m => encConv rd rs1 m 3#4
  | .vol2s rd rs1 m => encConv rd rs1 m 4#4
  | .s2vol rd rs1 m => encConv rd rs1 m 5#4
  | .p2b rd rs1 m => encConv rd rs1 m 6#4
  | .p2f rd rs1 m => encConv rd rs1 m 7#4
  | .p2q rd rs1 m => encConv rd rs1 m 8#4
  | .p2st rd rs1 m => encConv rd rs1 m 9#4
  | .rand rd => encRd 0x20#6 0#2 rd
  | .rseed rs1 => encRs1 0x21#6 0#2 rs1
  | .rget rd => encRd 0x22#6 0#2 rd
  | .etrig vi => encV 0x24#6 0#2 vi
  | .eoff vi => encV 0x25#6 0#2 vi
  | .eval rd vi => encVRd 0x26#6 0#2 rd vi
  | .eadv vi => encV 0x27#6 0#2 vi
  | .von rs1 vi => encVRs1 0x2A#6 0#2 rs1 vi
  | .voff vi => encV 0x2B#6 0#2 vi
  | .vslide rs1 vi => encVRs1 0x2C#6 0#2 rs1 vi
  | .vgetn rd vi => encVRd 0x2D#6 0#2 rd vi
  | .vphadv rs1 vi => encVRs1 0x2F#6 0#2 rs1 vi
  | .noteon rs1 rs2 rs3 => encT 0x30#6 0#2 rs1 rs2 rs3
  | .noteoff rs1 rs2 => encRs12 0x31#6 0#2 rs1 rs2
  | .anoff => encN1 0x32#6 0#2
  | .run rd rs1 rs2 => encR3 0x33#6 0#2 rd rs1 rs2
  | .lds rd rs1 imm => encI 0x38#6 0#2 rd rs1 imm
  | .sts rd rs1 imm => encI 0x39#6 0#2 rd rs1 imm
  | .ldb rd rs1 imm => encI 0x3A#6 0#2 rd rs1 imm
  | .stb rd rs1 imm => encI 0x3B#6 0#2 rd rs1 imm

/-- The command's word (30_encoding.md R81). -/
def encode (i : Instr) : Word := (encodeFields i).toWord

/-! A word as bytes, little-endian: byte 0 holds bits 7:0 (20_memory.md R62). -/

/-- Byte `k` of a word. -/
def byteOf (c : Word) (k : Nat) : Byte := c.extractLsb' (8 * k) 8

/-- The four bytes of a word, byte 0 first (20_memory.md R62). -/
def wordBytes (c : Word) : List Byte := [byteOf c 0, byteOf c 1, byteOf c 2, byteOf c 3]

/-- Decode the command whose serialised word stands first in a byte list, with the rest of the list. -/
def decodeBytes : List Byte → Except DecodeError (Instr × List Byte)
  | b0 :: b1 :: b2 :: b3 :: rest =>
    match decode (b3 ++ b2 ++ b1 ++ b0) with
    | .ok i => .ok (i, rest)
    | .error e => .error e
  | _ => .error .truncated

/-- The serialised word of a command. -/
def encodeBytes (i : Instr) : List Byte := wordBytes (encode i)

/-- The command that the decoder reads from the bits of an opcode-table row: bit 0 is the least
significant bit of the one command word, and every bit from `nbits` up is 0. -/
def decodeTableWord (nbits w : Nat) : Option Instr :=
  match decodeBytes (wordBytes (BitVec.ofNat 32 (w % 2 ^ nbits))) with
  | .ok (i, _) => some i
  | .error _ => none

end Sys2Proof
end

