-- ==== Sys2Proof/Config.lean ====
section
/-! DEFINITION. The configuration record of 00_scope.md R5, what makes a configuration legal (R6), and the
free values: constants without a body, of which no proof can know the value. -/

namespace Sys2Proof

/-- The three fixed-point widths (00_scope.md R15). They differ only in their fractional bits. -/
inductive Width where
  | sample
  | half
  | quarter
  deriving DecidableEq, Repr

/-- The three ROMs (10_state.md R33). -/
inductive RomTable where
  | sin
  | exp2
  | note
  deriving DecidableEq, Repr

/-- `ENV_ADVANCE_MODE` (00_scope.md R5): NONE or STEP. -/
inductive EnvAdvance where
  | off
  | step
  deriving DecidableEq, Repr, Inhabited

/-- `INTERP_PRODUCT` (00_scope.md R5): EXACT or WRAP32. -/
inductive InterpProduct where
  | exactProduct
  | wrapProduct
  deriving DecidableEq, Repr, Inhabited

/-- Which function an OPEN function parameter of 00_scope.md R5 stands for. `external` is the unknown
one, a constant without a body; `fixture` is the test configuration's (R7, R17). A claim about every
configuration covers both. Log 2. -/
inductive Binding where
  | external
  | fixture
  deriving DecidableEq, Repr, Inhabited

/-- The configuration record (00_scope.md R5). It is fixed for a block (70_reset_and_hazards.md R333).
Log 1. -/
structure Config where
  /-- `F_S`, fractional bits of Sample. -/
  fS : Nat
  /-- `F_H`, fractional bits of Half. -/
  fH : Nat
  /-- `F_Q`, fractional bits of Quarter. -/
  fQ : Nat
  /-- `SIN_ROM[0..512]`, Sample words. -/
  sinRom : Vector Word 513
  /-- `EXP2_ROM[0..512]`, Sample words. -/
  exp2Rom : Vector Word 513
  /-- `NOTE_ROM[0..127]`, Half words. -/
  noteRom : Vector Word 128
  /-- `RNG_EXTRACT`. -/
  rngExtract : Binding
  /-- `RNG_SEED_RESET`. -/
  rngSeedReset : Word
  /-- `K_LOG2_10_S`. -/
  kLog10S : Word
  /-- `K_LOG2_10_H`. -/
  kLog10H : Word
  /-- `K_0002_H`. -/
  k0002H : Word
  /-- `LOG2_FN`. -/
  log2Fn : Binding
  /-- `QC0`, `QS1`, `QS2`, Half words. -/
  qc0 : Word
  qs1 : Word
  qs2 : Word
  /-- `ENV_ADVANCE_MODE`. -/
  envAdvance : EnvAdvance
  /-- `ENV_STEP`, Sample. -/
  envStep : Word
  /-- `VOICE_RENDER`. -/
  voiceRender : Binding
  /-- `SONGPOS_UNITS_PER_SECOND`. -/
  songUnits : Nat
  /-- `BUF_WORDS`. -/
  bufWords : Nat
  /-- `DEVICE_ID`. -/
  deviceId : Word
  /-- `INTERP_PRODUCT`. -/
  interpProduct : InterpProduct
  deriving DecidableEq, Repr, Inhabited

/-! The parameters with one value (00_scope.md R5). -/

/-- `SAMPLE_RATE`. -/
abbrev sampleRate : Nat := 48000

/-- `LCG_MULT`. -/
abbrev lcgMult : Int := 0x015A4E35

/-- The bounds on the fractional-bit counts (00_scope.md R6). -/
def Config.fracLegal (c : Config) : Bool :=
  decide (c.fS ≤ 30 ∧ c.fH < c.fS ∧ c.fQ < c.fH ∧ 9 ≤ c.fS ∧ 9 ≤ c.fH ∧ c.fH ≤ 16 ∧ c.fQ ≤ 12 ∧
    c.fS % 2 = 0 ∧ c.fH % 2 = 0 ∧ c.fQ % 2 = 0)

/-- The bounds on the buffer RAM (00_scope.md R5, `BUF_WORDS`). -/
def Config.bufLegal (c : Config) : Bool := decide (64 ≤ c.bufWords ∧ c.bufWords ≤ 65536)

/-- The guard entries of the ROMs (10_state.md R33; 90_conflicts.md C3) and "steeper" (43_conversions.md
R199). -/
def Config.tableLegal (c : Config) : Bool :=
  decide (c.sinRom[512] = c.sinRom[0] ∧ c.exp2Rom[0] = 0 ∧ c.exp2Rom[512] = BitVec.ofNat 32 (2 ^ c.fS) ∧
    (sint c.qs1).natAbs < (sint c.qs2).natAbs)

/-- A configuration that the spec admits; every other is refused (00_scope.md R6). Log 12. -/
def Config.legal (c : Config) : Bool := c.fracLegal && c.bufLegal && c.tableLegal

/-! What a voice's oscillator sees and returns (00_scope.md R17). -/

/-- The view that VOICE_RENDER takes. -/
structure RenderView where
  voice : Word
  currentNote : Word
  detune : Word
  pan : Word
  vibPhase : Word
  oscPhase : Word
  envValue : Word
  vibRate : Word
  vibAmount : Word
  deriving DecidableEq, Repr, Inhabited

/-- The triple that VOICE_RENDER returns. -/
structure RenderOut where
  sample : Word
  oscPhase : Word
  vibPhase : Word
  deriving DecidableEq, Repr, Inhabited

/-! The free values. -/

/-- The configuration that some block happens to have. Log 1. -/
opaque Config.choice : Config

/-- `RNG_EXTRACT` where it is the unknown one (00_scope.md R5, 42_rng.md R180). Log 2. -/
opaque Config.openRngExtract : Word → Word

/-- `LOG2_FN` where it is the unknown one (00_scope.md R5, 43_conversions.md R192). Log 2. -/
opaque Config.openLog2 : Word → Word

/-- `VOICE_RENDER` where it is the unknown one (00_scope.md R17). Log 2. -/
opaque Config.openVoiceRender : RenderView → RenderOut

/-- What BUF holds at an address that nothing has written since the reset of the given number
(10_state.md R35). Log 3. -/
opaque Config.bufDraw : Nat → Nat → Word

/-- What the refused host-bus read of the given number returns (20_memory.md R69). Log 4. -/
opaque Config.busDraw : Nat → Word

/-- The word that stands for an integer `result32` was promised to fit and that does not (00_scope.md
R11). Log 9. -/
opaque Config.unfit32 : Int → Word

/-- A legal configuration, used only where `Config.choice` happens not to be one. Log 1. -/
def Config.fallback : Config where
  fS := 24
  fH := 16
  fQ := 8
  sinRom := Vector.replicate 513 0
  exp2Rom := (Vector.replicate 513 0).set 512 (BitVec.ofNat 32 (2 ^ 24))
  noteRom := Vector.replicate 128 0
  rngExtract := .external
  rngSeedReset := 0
  kLog10S := 0
  kLog10H := 0
  k0002H := 0
  log2Fn := .external
  qc0 := 0
  qs1 := 0
  qs2 := 1
  envAdvance := .off
  envStep := 0
  voiceRender := .external
  songUnits := 0
  bufWords := 64
  deviceId := 0
  interpProduct := .exactProduct

/-- The configuration of the block that `State.reset` describes: some legal one (00_scope.md R6). Nothing
else is known of it. Log 1. -/
def Config.block : Config := if Config.choice.legal then Config.choice else Config.fallback

end Sys2Proof
end

