-- ==== Sys2Proof/Machine/Arith.lean ====
section
/-! DEFINITION. The exact integer primitives of 00_scope.md R10. -/

namespace Sys2Proof.Machine

open Sys2Proof

/-- The least value of a word, -2^31. -/
abbrev minWord : Int := -2147483648

/-- The greatest value of a word, 2^31 - 1. -/
abbrev maxWord : Int := 2147483647

/-- 2^n as an integer. -/
def pow2 (n : Nat) : Int := ((2 ^ n : Nat) : Int)

/-- `fdiv(a, b)`: rounds toward minus infinity. -/
def fdiv (a b : Int) : Int := Int.fdiv a b

/-- `tdiv(a, b)`: rounds toward zero. -/
def tdiv (a b : Int) : Int := Int.tdiv a b

/-- `fmod(a, m)`. -/
def fmod (a m : Int) : Int := a - m * fdiv a m

/-- `asr(a, n)`: arithmetic shift right. -/
def asr (a : Int) (n : Nat) : Int := fdiv a (pow2 n)

/-- `shl(a, n)`. -/
def shl (a : Int) (n : Nat) : Int := a * pow2 n

/-- `wrap32(z)`: the word value congruent to z modulo 2^32. -/
def wrap32 (z : Int) : Int := Int.bmod z 4294967296

/-- `sat32(z)`. -/
def sat32 (z : Int) : Int := min (max z minWord) maxWord

/-- `ilog2(u)`, the index of the highest set bit of u. -/
def ilog2 (u : Nat) : Nat := Nat.log2 u

/-- One bit of a root at a time, from bit `k - 1` down: `r` is the root so far. -/
def isqrtFrom : Nat → Nat → Nat → Nat
  | 0, r, _ => r
  | k + 1, r, u => if (r + 2 ^ k) * (r + 2 ^ k) ≤ u then isqrtFrom k (r + 2 ^ k) u else isqrtFrom k r u

/-- `isqrt(u)`, the largest r with r * r <= u, for every u below 2^32: digit by digit, as 40_alu.md R129
and R130 say (16 root bits). -/
def isqrt (u : Nat) : Nat := isqrtFrom 16 0 u

/-- `fixmul_W(a, b)` with F fractional bits, unbounded. -/
def fixmul (F : Nat) (a b : Int) : Int := asr (a * b) F

/-- `fract_W(a)` with F fractional bits. -/
def fract (F : Nat) (a : Int) : Int := fmod a (pow2 F)

/-- The word that holds an integer modulo 2^32. -/
def toWord (z : Int) : Word := BitVec.ofInt 32 z

end Sys2Proof.Machine
end

