-- ==== Sys2Proof/Machine/State.lean ====
section
/-! DEFINITION. The state of the block (10_state.md R22 to R37) as plain data, the ways a step can stop, and
the state after reset (70_reset_and_hazards.md R330). -/

namespace Sys2Proof.Machine

open Sys2Proof

/-- The block's mode (10_state.md R22). -/
inductive Mode where
  | ready
  | faulted
  deriving DecidableEq, Repr

/-- The fault causes (60_exceptions.md R302). -/
inductive Cause where
  | illegal
  | sqrtNeg
  | divZero
  | noteRange
  | freqRange
  | badAddr
  | badValue
  | romIndex
  | logDomain
  deriving DecidableEq, Repr

/-- An event slot's KIND (10_state.md R30). -/
inductive EventKind where
  | free
  | noteOn
  | noteOff
  deriving DecidableEq, Repr

/-- An event slot (10_state.md R30). -/
structure Event where
  kind : EventKind
  delta : Word
  note : Word
  velocity : Word
  deriving DecidableEq, Repr

/-- A voice (10_state.md R31). IS_ON and SLIDE_ACTIVE hold 0 or 1 only (20_memory.md R65). -/
structure Voice where
  isOn : Bool
  note : Word
  detune : Word
  pan : Word
  vibPhase : Word
  slideTime : Word
  slideActive : Bool
  slideDelta : Word
  slideRemaining : Word
  destNote : Word
  currentNote : Word
  oscPhase : Word
  deriving DecidableEq, Repr

/-- An envelope's STATE (10_state.md R32, 44_envelope.md R210). -/
inductive EnvStage where
  | attack
  | decay
  | sustain
  | release
  | finished
  deriving DecidableEq, Repr

/-- An envelope (10_state.md R32). -/
structure Envelope where
  stage : EnvStage
  position : Word
  attackRate : Word
  decayRate : Word
  sustain : Word
  releaseRate : Word
  releaseValue : Word
  deriving DecidableEq, Repr

/-- The device knobs (10_state.md R28). -/
structure Knobs where
  unisono : Word
  detuneSpread : Word
  panSpread : Word
  vibRate : Word
  vibAmount : Word
  rise : Word
  slideTime : Word
  deriving DecidableEq, Repr

/-- The two spaces that the host bus reaches (20_memory.md R60, R69). -/
inductive Space where
  | state
  | buf
  deriving DecidableEq, Repr

/-- One interaction of the host (70_reset_and_hazards.md R346). A bus address is a 32-bit unsigned word
number (log 10). -/
inductive HostRequest where
  /-- A command word on the command port (20_memory.md R70). -/
  | command (w : Word)
  /-- A host-bus read (20_memory.md R69). -/
  | busRead (sp : Space) (addr : Word)
  /-- A host-bus write (20_memory.md R69). -/
  | busWrite (sp : Space) (addr : Word) (w : Word)
  /-- The reset signal (70_reset_and_hazards.md R330). -/
  | reset
  deriving DecidableEq, Repr

/-- BUF: the words written since the last reset, as (address, word) pairs (10_state.md R34, 20_memory.md
R61, R63). An address that is not listed holds no known word (10_state.md R35). Log 3, log 7. -/
abbrev Buf := List (Nat × Word)

/-- The canonical form of BUF: addresses strictly rising, so that equal contents are equal lists. -/
abbrev Buf.wf (b : Buf) : Prop := b.Pairwise fun p q => p.1 < q.1

/-- The block's state, the configuration that it is built with, and the host's side of its port. -/
structure State where
  /-- The configuration (00_scope.md R5); no step changes it (70_reset_and_hazards.md R333). Log 1. -/
  cfg : Config
  /-- The mode, visible as STATUS.FAULT (10_state.md R22, R24). -/
  mode : Mode
  /-- r0 to r15 (10_state.md R23). -/
  regs : Vector Word 16
  /-- STATUS.OV (10_state.md R24, R25). -/
  ov : Bool
  /-- STATUS.ERR (10_state.md R24). -/
  err : Bool
  /-- STATUS.ECODE (10_state.md R24). -/
  ecode : BitVec 4
  /-- STATUS.FCAUSE (10_state.md R24). -/
  fcause : BitVec 4
  /-- FAULTCMD (10_state.md R26). -/
  faultcmd : Word
  /-- SEED (10_state.md R27). -/
  seed : Word
  /-- The knobs (10_state.md R28). -/
  knobs : Knobs
  /-- ACTIVE_NOTE[0..3] (10_state.md R29). -/
  activeNotes : Vector Word 4
  /-- NOTE_COUNT (10_state.md R29). -/
  noteCount : Word
  /-- The event slots (10_state.md R30). -/
  events : Vector Event 8
  /-- The voices (10_state.md R31). -/
  voices : Vector Voice 8
  /-- The envelopes (10_state.md R32). -/
  envs : Vector Envelope 8
  /-- The sample buffer RAM (10_state.md R34). -/
  buf : Buf
  /-- The model's own: the number of the last reset, which numbers the unknown words of BUF. Log 3. -/
  bufEpoch : Nat
  /-- The model's own: the host's interactions still to come, oldest first (20_memory.md R71). Log 5. -/
  host : List HostRequest
  /-- The model's own: the word that the last host-bus read returned (70_reset_and_hazards.md R346).
  Log 6. -/
  busReply : Option Word
  /-- The model's own: how many host-bus reads were refused; it numbers their free words. Log 4. -/
  busDraws : Nat
  deriving DecidableEq, Repr

/-- The model never stops with a fault of its own: every fault of the block is a NEXT state in mode FAULTED
(60_exceptions.md R300, R301). No constructor, so safe. Log 8. -/
inductive Fault where
  deriving DecidableEq, Repr

/-- Why the model gives no next state. -/
inductive Refusal where
  /-- Raised by `exec` for an instruction whose meaning is not written yet; safe. -/
  | notModelled (mnemonic : String)
  /-- Raised by `boot` for a configuration that 00_scope.md R6 tells a model to refuse; safe. -/
  | illegalConfiguration
  deriving DecidableEq, Repr

/-- A free event slot (46_engine.md R259). -/
def Event.cleared : Event := { kind := .free, delta := 0, note := 0, velocity := 0 }

/-- A voice after reset (10_state.md R31). -/
def Voice.atReset : Voice :=
  { isOn := false, note := 0, detune := 0, pan := 0, vibPhase := 0, slideTime := 0, slideActive := false,
    slideDelta := 0, slideRemaining := 0, destNote := 0, currentNote := 0, oscPhase := 0 }

/-- An envelope after reset (10_state.md R32). -/
def Envelope.atReset : Envelope :=
  { stage := .finished, position := 0, attackRate := 0, decayRate := 0, sustain := 0, releaseRate := 0,
    releaseValue := 0 }

/-- The knobs after reset (10_state.md R28, R37). -/
def Knobs.atReset : Knobs :=
  { unisono := 1, detuneSpread := 0, panSpread := 0, vibRate := 0, vibAmount := 0, rise := 0,
    slideTime := 0 }

/-- The state after reset of a block with the given configuration (10_state.md R37,
70_reset_and_hazards.md R330). Log 6 names the model's own fields. -/
def State.resetWith (c : Config) : State where
  cfg := c
  mode := .ready
  regs := Vector.replicate 16 0
  ov := false
  err := false
  ecode := 0
  fcause := 0
  faultcmd := 0
  seed := c.rngSeedReset
  knobs := Knobs.atReset
  activeNotes := Vector.replicate 4 0
  noteCount := 0
  events := Vector.replicate 8 Event.cleared
  voices := Vector.replicate 8 Voice.atReset
  envs := Vector.replicate 8 Envelope.atReset
  buf := []
  bufEpoch := 0
  host := []
  busReply := none
  busDraws := 0

/-- The block right after reset (70_reset_and_hazards.md R330), with the configuration left open. -/
def State.reset : State := State.resetWith Config.block

end Sys2Proof.Machine
end

