-- ==== Sys2Proof/Machine/Flags.lean ====
section
/-! DEFINITION. Overflow: `apply`, `result32` and the sticky flag STATUS.OV (00_scope.md R11, 10_state.md
R25). -/

namespace Sys2Proof.Machine

open Sys2Proof

/-- The value that `apply(M, z)` returns (00_scope.md R11). -/
def applyVal (m : Ovf) (z : Int) : Int :=
  match m with
  | .wrap => wrap32 z
  | .sat => sat32 z

/-- `apply(M, z)` returns another value than z, so it sets STATUS.OV (00_scope.md R11). -/
def overflows (m : Ovf) (z : Int) : Bool := decide (applyVal m z ≠ z)

/-- The word that `apply(M, z)` returns. -/
def applyWord (m : Ovf) (z : Int) : Word := toWord (applyVal m z)

/-- Set the sticky STATUS.OV where `b` holds; it is never cleared here (10_state.md R25). -/
def State.raiseOv (s : State) (b : Bool) : State := { s with ov := s.ov || b }

/-- z is a word's value. -/
abbrev fits32 (z : Int) : Prop := minWord ≤ z ∧ z ≤ maxWord

/-- `result32(z)`, z itself, which the spec promises to fit (00_scope.md R11). An integer that does not fit
is a free value (log 9). -/
def result32 (z : Int) : Word := if fits32 z then toWord z else Config.unfit32 z

end Sys2Proof.Machine
end

