-- ==== Sys2Proof/Machine/Operands.lean ====
section
/-! DEFINITION. Operand forms: the registers, widths and their units, immediates, effective addresses, the
RUN descriptor and the OPEN functions of the configuration (00_scope.md R5, R12, R15; 30_encoding.md R85). -/

namespace Sys2Proof.Machine

open Sys2Proof

/-- The word of operand register r (10_state.md R23). -/
def State.reg (s : State) (r : Reg) : Word := s.regs[r.toNat]'r.isLt

/-- `x[r]`: the signed value of operand register r (00_scope.md R12). -/
def State.x (s : State) (r : Reg) : Int := sint (s.reg r)

/-- `uint(x[r])`: the unsigned value of operand register r. -/
def State.ux (s : State) (r : Reg) : Nat := uint (s.reg r)

/-- Write a word into operand register r; no register discards it (10_state.md R23). -/
def State.setReg (s : State) (r : Reg) (w : Word) : State :=
  { s with regs := s.regs.set r.toNat w r.isLt }

/-- `x[r] <- apply(M, z)`. -/
def State.setApply (s : State) (r : Reg) (m : Ovf) (z : Int) : State :=
  (s.raiseOv (overflows m z)).setReg r (applyWord m z)

/-- `x[r] <- result32(z)`; OV is unchanged. -/
def State.setResult (s : State) (r : Reg) (z : Int) : State := s.setReg r (result32 z)

/-- `F_W` (00_scope.md R15). -/
def frac (c : Config) : Width → Nat
  | .sample => c.fS
  | .half => c.fH
  | .quarter => c.fQ

/-- `ONE_W` (00_scope.md R10). -/
def one (c : Config) (w : Width) : Int := pow2 (frac c w)

/-- `sext_16(IMM16)` (00_scope.md R9). -/
def sext16 (imm : BitVec 16) : Int := imm.toInt

/-- The effective address x[RS1] + sext_16(IMM16), an unbounded integer (47_access.md R280). -/
def State.effAddr (s : State) (rs1 : Reg) (imm : BitVec 16) : Int := s.x rs1 + sext16 imm

/-- The sample count of a RUN descriptor, bits [31:16] (46_engine.md R253). -/
def descLen (w : Word) : Nat := (w.extractLsb' 16 16).toNat

/-- The first BUF word of a RUN descriptor, bits [15:0] (46_engine.md R253). -/
def descBase (w : Word) : Nat := (w.extractLsb' 0 16).toNat

/-- The voice or envelope slot that a voice index names (30_encoding.md R85). -/
def slotOf (vi : VoiceIdx) : Fin 8 := ⟨vi.toNat, vi.isLt⟩

/-- `RNG_EXTRACT` (00_scope.md R5; R7 gives TEST_EXTRACT). -/
def rngExtract (c : Config) (w : Word) : Word :=
  match c.rngExtract with
  | .external => Config.openRngExtract w
  | .fixture => w

/-- `LOG2_FN` (00_scope.md R5; R7 gives TEST_LOG2). -/
def log2Fn (c : Config) (g : Word) : Word :=
  match c.log2Fn with
  | .external => Config.openLog2 g
  | .fixture => toWord (((ilog2 (uint g) : Int) - (c.fS : Int)) * pow2 c.fH)

/-- `VOICE_RENDER` (00_scope.md R17, which gives TEST_RENDER). -/
def voiceRender (c : Config) (view : RenderView) : RenderOut :=
  match c.voiceRender with
  | .external => Config.openVoiceRender view
  | .fixture => { sample := toWord (asr (sint view.currentNote) 8), oscPhase := view.oscPhase,
                  vibPhase := view.vibPhase }

end Sys2Proof.Machine
end

