-- ==== Sys2Proof/Machine/Ops.lean ====
section
/-! DEFINITION. The named operations over the block's state: taking a fault (60_exceptions.md R300), the
device error (R306) and reset (70_reset_and_hazards.md R330); the slots of the engine; BUF; and the state
space with its map, its access rights and its legal values (20_memory.md R64, R65). -/

namespace Sys2Proof.Machine

open Sys2Proof

/-- What a command's execution answers. -/
abbrev Result := Host.Outcome State Fault Refusal

/-! Faults, device errors and reset. -/

/-- A cause's code in STATUS.FCAUSE (60_exceptions.md R302). -/
def causeCode : Cause → BitVec 4
  | .illegal => 1
  | .sqrtNeg => 2
  | .divZero => 3
  | .noteRange => 4
  | .freqRange => 5
  | .badAddr => 6
  | .badValue => 7
  | .romIndex => 8
  | .logDomain => 9

/-- Fault entry (60_exceptions.md R300): FAULT and FCAUSE are set, FAULTCMD takes the command word, the
mode becomes FAULTED, and nothing else changes (R305). There is no return from a fault (R309). -/
def takeFault (w : Word) (c : Cause) (s : State) : State :=
  { s with mode := .faulted, fcause := causeCode c, faultcmd := w }

/-- `raise Fault(cause)` by a command; its word is the one its encoding gives (log 13). -/
def faultOf (i : Instr) (c : Cause) (s : State) : State := takeFault (encode i) c s

/-- `raise DeviceError(code)` (60_exceptions.md R306). -/
def deviceError (code : BitVec 4) (s : State) : State := { s with err := true, ecode := code }

/-- Reset (70_reset_and_hazards.md R330), the only way out of FAULTED: every state item takes its reset
value, the configuration stays (R333), and BUF is unknown anew (10_state.md R35, log 3). The host's side
stays the host's. -/
def takeReset (s : State) : State :=
  { State.resetWith s.cfg with
    bufEpoch := s.bufEpoch + 1, host := s.host, busReply := s.busReply, busDraws := s.busDraws }

/-! Voices, envelopes and event slots. -/

/-- Voice v (10_state.md R31). -/
def State.voice (s : State) (v : Fin 8) : Voice := s.voices[v.val]

/-- Replace voice v. -/
def State.setVoice (s : State) (v : Fin 8) (x : Voice) : State :=
  { s with voices := s.voices.set v.val x }

/-- Envelope e (10_state.md R32). -/
def State.env (s : State) (e : Fin 8) : Envelope := s.envs[e.val]

/-- Replace envelope e. -/
def State.setEnv (s : State) (e : Fin 8) (x : Envelope) : State := { s with envs := s.envs.set e.val x }

/-- Event slot k (10_state.md R30). -/
def State.event (s : State) (k : Fin 8) : Event := s.events[k.val]

/-- Replace event slot k. -/
def State.setEvent (s : State) (k : Fin 8) (x : Event) : State :=
  { s with events := s.events.set k.val x }

/-- The eight slots in ascending order, as every scan of the engine visits them (46_engine.md R250, R254,
R256, R262). -/
def slots : List (Fin 8) := [0, 1, 2, 3, 4, 5, 6, 7]

/-! BUF (10_state.md R34). -/

/-- The word listed for an address. -/
def Buf.lookup : Buf → Nat → Option Word
  | [], _ => none
  | (b, w) :: rest, a => if a = b then some w else Buf.lookup rest a

/-- List a word for an address, keeping the addresses rising. -/
def Buf.insert : Buf → Nat → Word → Buf
  | [], a, w => [(a, w)]
  | (b, v) :: rest, a, w =>
    if a < b then (a, w) :: (b, v) :: rest
    else if a = b then (a, w) :: rest
    else (b, v) :: Buf.insert rest a w

/-- `MemRead(BUF, a, 1)`; a word that nothing has written since reset is unknown (10_state.md R35,
log 3). -/
def State.bufRead (s : State) (a : Nat) : Word := (s.buf.lookup a).getD (Config.bufDraw s.bufEpoch a)

/-- `MemWrite(BUF, a, 1, w)`. -/
def State.bufWrite (s : State) (a : Nat) (w : Word) : State := { s with buf := s.buf.insert a w }

/-- The BUF word that an address names, if it names one (20_memory.md R60, R61). -/
def bufLoc (c : Config) (a : Int) : Option Nat :=
  if 0 ≤ a ∧ a < (c.bufWords : Int) then some a.toNat else none

/-! The state space (20_memory.md R64). -/

/-- The knobs (10_state.md R28). -/
inductive Knob where
  | unisono
  | detuneSpread
  | panSpread
  | vibRate
  | vibAmount
  | rise
  | slideTime
  deriving DecidableEq, Repr

/-- The words of an event slot (10_state.md R30). -/
inductive EventField where
  | kind
  | delta
  | note
  | velocity
  deriving DecidableEq, Repr

/-- The words of a voice (10_state.md R31). -/
inductive VoiceField where
  | isOn
  | note
  | detune
  | pan
  | vibPhase
  | slideTime
  | slideActive
  | slideDelta
  | slideRemaining
  | destNote
  | currentNote
  | oscPhase
  deriving DecidableEq, Repr

/-- The words of an envelope (10_state.md R32). -/
inductive EnvField where
  | stage
  | position
  | attackRate
  | decayRate
  | sustain
  | releaseRate
  | releaseValue
  deriving DecidableEq, Repr

/-- A mapped, not reserved word of the state space (20_memory.md R64). -/
inductive StateLoc where
  | status
  | faultcmd
  | devid
  | config
  | seed
  | knob (k : Knob)
  | activeNote (i : Fin 4)
  | noteCount
  | event (k : Fin 8) (f : EventField)
  | voice (v : Fin 8) (f : VoiceField)
  | env (e : Fin 8) (f : EnvField)
  deriving DecidableEq, Repr

/-- The event word at an offset of its slot (10_state.md R30). -/
def eventField : Nat → Option EventField
  | 0 => some .kind
  | 1 => some .delta
  | 2 => some .note
  | 3 => some .velocity
  | _ => none

/-- The voice word at an offset of its voice; +12 to +15 are reserved (10_state.md R31). -/
def voiceField : Nat → Option VoiceField
  | 0 => some .isOn
  | 1 => some .note
  | 2 => some .detune
  | 3 => some .pan
  | 4 => some .vibPhase
  | 5 => some .slideTime
  | 6 => some .slideActive
  | 7 => some .slideDelta
  | 8 => some .slideRemaining
  | 9 => some .destNote
  | 10 => some .currentNote
  | 11 => some .oscPhase
  | _ => none

/-- The envelope word at an offset of its envelope; +7 is reserved (10_state.md R32). -/
def envField : Nat → Option EnvField
  | 0 => some .stage
  | 1 => some .position
  | 2 => some .attackRate
  | 3 => some .decayRate
  | 4 => some .sustain
  | 5 => some .releaseRate
  | 6 => some .releaseValue
  | _ => none

/-- The words below 0x020 (20_memory.md R64; 10_state.md R24 to R29). -/
def lowLoc : Nat → Option StateLoc
  | 0x00 => some .status
  | 0x01 => some .faultcmd
  | 0x02 => some .devid
  | 0x03 => some .config
  | 0x04 => some .seed
  | 0x08 => some (.knob .unisono)
  | 0x09 => some (.knob .detuneSpread)
  | 0x0A => some (.knob .panSpread)
  | 0x0B => some (.knob .vibRate)
  | 0x0C => some (.knob .vibAmount)
  | 0x0D => some (.knob .rise)
  | 0x0E => some (.knob .slideTime)
  | 0x10 => some (.activeNote 0)
  | 0x11 => some (.activeNote 1)
  | 0x12 => some (.activeNote 2)
  | 0x13 => some (.activeNote 3)
  | 0x14 => some .noteCount
  | _ => none

/-- The word at offset `n` of the state space (20_memory.md R64). -/
def locAt (n : Nat) : Option StateLoc :=
  if n < 0x20 then lowLoc n
  else if n < 0x40 then (eventField ((n - 0x20) % 4)).map (.event (Fin.ofNat 8 ((n - 0x20) / 4)))
  else if n < 0xC0 then (voiceField ((n - 0x40) % 16)).map (.voice (Fin.ofNat 8 ((n - 0x40) / 16)))
  else if n < 0x100 then (envField ((n - 0xC0) % 8)).map (.env (Fin.ofNat 8 ((n - 0xC0) / 8)))
  else none

/-- The word that a state address names: none where it is negative, unmapped or reserved (20_memory.md
R61, R64). -/
def stateLoc (a : Int) : Option StateLoc := if 0 ≤ a then locAt a.toNat else none

/-! Codes of the enumerated words (20_memory.md R65). -/

/-- 0 or 1. -/
def flagWord (b : Bool) : Word := if b then 1 else 0

/-- The flag that a word writes; only 0 and 1 are legal. -/
def flagOf (w : Word) : Option Bool := if w = 0 then some false else if w = 1 then some true else none

/-- KIND's code (10_state.md R30). -/
def kindWord : EventKind → Word
  | .free => 0
  | .noteOn => 1
  | .noteOff => 2

/-- The KIND that a word writes; 3 and above are illegal. -/
def kindOf (w : Word) : Option EventKind :=
  if w = 0 then some .free else if w = 1 then some .noteOn else if w = 2 then some .noteOff else none

/-- STATE's code (10_state.md R32). -/
def stageWord : EnvStage → Word
  | .attack => 0
  | .decay => 1
  | .sustain => 2
  | .release => 3
  | .finished => 4

/-- The STATE that a word writes; 5 and above are illegal. -/
def stageOf (w : Word) : Option EnvStage :=
  if w = 0 then some .attack else if w = 1 then some .decay else if w = 2 then some .sustain
  else if w = 3 then some .release else if w = 4 then some .finished else none

/-! Reading. -/

/-- STATUS as one word; the reserved bits read 0 (10_state.md R24). -/
def State.statusWord (s : State) : Word :=
  0#16 ++ s.fcause ++ 0#3 ++ BitVec.ofBool (s.mode == .faulted) ++ s.ecode ++ 0#2 ++
    BitVec.ofBool s.err ++ BitVec.ofBool s.ov

/-- CONFIG (10_state.md R26). -/
def configWord (c : Config) : Word :=
  0#6 ++ BitVec.ofBool (c.interpProduct == .wrapProduct) ++ BitVec.ofBool (c.envAdvance == .step) ++
    BitVec.ofNat 8 c.fQ ++ BitVec.ofNat 8 c.fH ++ BitVec.ofNat 8 c.fS

/-- A knob's word. -/
def Knobs.word (k : Knobs) : Knob → Word
  | .unisono => k.unisono
  | .detuneSpread => k.detuneSpread
  | .panSpread => k.panSpread
  | .vibRate => k.vibRate
  | .vibAmount => k.vibAmount
  | .rise => k.rise
  | .slideTime => k.slideTime

/-- An event slot's word. -/
def Event.word (e : Event) : EventField → Word
  | .kind => kindWord e.kind
  | .delta => e.delta
  | .note => e.note
  | .velocity => e.velocity

/-- A voice's word. -/
def Voice.word (v : Voice) : VoiceField → Word
  | .isOn => flagWord v.isOn
  | .note => v.note
  | .detune => v.detune
  | .pan => v.pan
  | .vibPhase => v.vibPhase
  | .slideTime => v.slideTime
  | .slideActive => flagWord v.slideActive
  | .slideDelta => v.slideDelta
  | .slideRemaining => v.slideRemaining
  | .destNote => v.destNote
  | .currentNote => v.currentNote
  | .oscPhase => v.oscPhase

/-- An envelope's word. -/
def Envelope.word (e : Envelope) : EnvField → Word
  | .stage => stageWord e.stage
  | .position => e.position
  | .attackRate => e.attackRate
  | .decayRate => e.decayRate
  | .sustain => e.sustain
  | .releaseRate => e.releaseRate
  | .releaseValue => e.releaseValue

/-- `MemRead(STATE, a, 1)`: no read has a side effect (20_memory.md R66). -/
def State.readLoc (s : State) : StateLoc → Word
  | .status => s.statusWord
  | .faultcmd => s.faultcmd
  | .devid => s.cfg.deviceId
  | .config => configWord s.cfg
  | .seed => s.seed
  | .knob k => s.knobs.word k
  | .activeNote i => s.activeNotes[i.val]
  | .noteCount => s.noteCount
  | .event k f => (s.event k).word f
  | .voice v f => (s.voice v).word f
  | .env e f => (s.env e).word f

/-! Writing. -/

/-- Write a knob. -/
def Knobs.write (k : Knobs) : Knob → Word → Knobs
  | .unisono, w => { k with unisono := w }
  | .detuneSpread, w => { k with detuneSpread := w }
  | .panSpread, w => { k with panSpread := w }
  | .vibRate, w => { k with vibRate := w }
  | .vibAmount, w => { k with vibAmount := w }
  | .rise, w => { k with rise := w }
  | .slideTime, w => { k with slideTime := w }

/-- Write an event word; none where KIND would be illegal. -/
def Event.write (e : Event) : EventField → Word → Option Event
  | .kind, w => (kindOf w).map fun k => { e with kind := k }
  | .delta, w => some { e with delta := w }
  | .note, w => some { e with note := w }
  | .velocity, w => some { e with velocity := w }

/-- Write a voice word; none where IS_ON or SLIDE_ACTIVE would be illegal. -/
def Voice.write (v : Voice) : VoiceField → Word → Option Voice
  | .isOn, w => (flagOf w).map fun b => { v with isOn := b }
  | .note, w => some { v with note := w }
  | .detune, w => some { v with detune := w }
  | .pan, w => some { v with pan := w }
  | .vibPhase, w => some { v with vibPhase := w }
  | .slideTime, w => some { v with slideTime := w }
  | .slideActive, w => (flagOf w).map fun b => { v with slideActive := b }
  | .slideDelta, w => some { v with slideDelta := w }
  | .slideRemaining, w => some { v with slideRemaining := w }
  | .destNote, w => some { v with destNote := w }
  | .currentNote, w => some { v with currentNote := w }
  | .oscPhase, w => some { v with oscPhase := w }

/-- Write an envelope word; none where STATE would be illegal. -/
def Envelope.write (e : Envelope) : EnvField → Word → Option Envelope
  | .stage, w => (stageOf w).map fun x => { e with stage := x }
  | .position, w => some { e with position := w }
  | .attackRate, w => some { e with attackRate := w }
  | .decayRate, w => some { e with decayRate := w }
  | .sustain, w => some { e with sustain := w }
  | .releaseRate, w => some { e with releaseRate := w }
  | .releaseValue, w => some { e with releaseValue := w }

/-- A STATUS write clears OV where bit 0 is set and ERR where bit 1 is set (10_state.md R24). -/
def State.writeStatus (s : State) (w : Word) : State :=
  { s with ov := s.ov && !w.getLsbD 0, err := s.err && !w.getLsbD 1 }

/-- BAD_VALUE where a write to an enumerated word is illegal (20_memory.md R65). -/
def orBadValue {α : Type} (x : Option α) (k : α → State) : Except Cause State :=
  match x with
  | some y => .ok (k y)
  | none => .error .badValue

/-- `MemWrite(STATE, a, 1, w)` with the access rights and legal values of 20_memory.md R64 and R65: the new
state, or the fault that an STS raises. -/
def State.writeLoc (s : State) (l : StateLoc) (w : Word) : Except Cause State :=
  match l with
  | .status => .ok (s.writeStatus w)
  | .faultcmd => .error .badAddr
  | .devid => .error .badAddr
  | .config => .error .badAddr
  | .seed => .ok { s with seed := w }
  | .knob k => .ok { s with knobs := s.knobs.write k w }
  | .activeNote i => .ok { s with activeNotes := s.activeNotes.set i.val w }
  | .noteCount => if uint w ≤ 4 then .ok { s with noteCount := w } else .error .badValue
  | .event k f => orBadValue ((s.event k).write f w) (s.setEvent k)
  | .voice v f => orBadValue ((s.voice v).write f w) (s.setVoice v)
  | .env e f => orBadValue ((s.env e).write f w) (s.setEnv e)

/-- A write to a state address (20_memory.md R64): BAD_ADDR where it names no word. -/
def State.writeState (s : State) (a : Int) (w : Word) : Except Cause State :=
  match stateLoc a with
  | some l => s.writeLoc l w
  | none => .error .badAddr

/-- A read of a state address (20_memory.md R64): none where it names no word. -/
def State.readState (s : State) (a : Int) : Option Word := (stateLoc a).map s.readLoc

end Sys2Proof.Machine
end

