-- ==== Sys2Proof/Machine/Access.lean ====
section
/-! DEFINITION. State and buffer access (47_access.md R280 to R284). -/

namespace Sys2Proof.Machine

open Sys2Proof

/-- LDS (47_access.md R281). -/
def execLds (rd rs1 : Reg) (imm : BitVec 16) (s : State) : Result :=
  .next (match s.readState (s.effAddr rs1 imm) with
    | some w => s.setReg rd w
    | none => faultOf (.lds rd rs1 imm) .badAddr s)

/-- STS (47_access.md R282): the RD field names the source register; BAD_ADDR comes before BAD_VALUE. -/
def execSts (rd rs1 : Reg) (imm : BitVec 16) (s : State) : Result :=
  .next (match s.writeState (s.effAddr rs1 imm) (s.reg rd) with
    | .ok t => t
    | .error c => faultOf (.sts rd rs1 imm) c s)

/-- LDB (47_access.md R283). -/
def execLdb (rd rs1 : Reg) (imm : BitVec 16) (s : State) : Result :=
  .next (match bufLoc s.cfg (s.effAddr rs1 imm) with
    | some a => s.setReg rd (s.bufRead a)
    | none => faultOf (.ldb rd rs1 imm) .badAddr s)

/-- STB (47_access.md R284): the RD field names the source register. -/
def execStb (rd rs1 : Reg) (imm : BitVec 16) (s : State) : Result :=
  .next (match bufLoc s.cfg (s.effAddr rs1 imm) with
    | some a => s.bufWrite a (s.reg rd)
    | none => faultOf (.stb rd rs1 imm) .badAddr s)

end Sys2Proof.Machine
end

