-- ==== Sys2Proof/Machine/Alu.lean ====
section
/-! DEFINITION. The fixed-point scalar ALU (40_alu.md R110 to R131). -/

namespace Sys2Proof.Machine

open Sys2Proof

/-! Shared operations. -/

/-- MUL at a width (40_alu.md R119): the product rounds toward minus infinity. -/
def mulAt (w : Width) (rd rs1 rs2 : Reg) (m : Ovf) (s : State) : Result :=
  .next (s.setApply rd m (fixmul (frac s.cfg w) (s.x rs1) (s.x rs2)))

/-- DIV at a width (40_alu.md R120): the quotient rounds toward zero, a zero divisor faults. -/
def divAt (i : Instr) (w : Width) (rd rs1 rs2 : Reg) (m : Ovf) (s : State) : Result :=
  .next (if s.x rs2 = 0 then faultOf i .divZero s
    else s.setApply rd m (tdiv (shl (s.x rs1) (frac s.cfg w)) (s.x rs2)))

/-- The shift of ASH before `apply` (40_alu.md R123). Past 64 places a shift changes neither the wrapped
nor the saturated result, nor OV; so 64 places stand for more (log 14). -/
def ashValue (a s : Int) : Int :=
  if 0 ≤ s then shl a (min s.toNat 64) else asr a (min (-s).toNat 64)

/-- FLOOR at a width (40_alu.md R127). -/
def floorAt (w : Width) (rd rs1 : Reg) (s : State) : Result :=
  .next (s.setResult rd (s.x rs1 - fract (frac s.cfg w) (s.x rs1)))

/-- FRACT at a width (40_alu.md R128). -/
def fractAt (w : Width) (rd rs1 : Reg) (s : State) : Result :=
  .next (s.setResult rd (fract (frac s.cfg w) (s.x rs1)))

/-- The root of a non-negative word value at a width, before the final `result32` (40_alu.md R129). -/
def rootValue (c : Config) (w : Width) (a : Int) : Int :=
  shl (isqrt a.toNat : Int) (frac c w / 2)

/-- SQRT at a width (40_alu.md R129). -/
def sqrtAt (i : Instr) (w : Width) (rd rs1 : Reg) (s : State) : Result :=
  .next (if s.x rs1 < 0 then faultOf i .sqrtNeg s
    else s.setResult rd (rootValue s.cfg w (s.x rs1)))

/-- CVT from width `w` to width `tw` (40_alu.md R131). -/
def cvtAt (w tw : Width) (rd rs1 : Reg) (m : Ovf) (s : State) : Result :=
  .next (if frac s.cfg w ≤ frac s.cfg tw then
      s.setApply rd m (shl (s.x rs1) (frac s.cfg tw - frac s.cfg w))
    else s.setResult rd (asr (s.x rs1) (frac s.cfg w - frac s.cfg tw)))

/-! The commands. -/

/-- NOP (40_alu.md R113). -/
def execNop (s : State) : Result := .next s

/-- LIL (40_alu.md R114). -/
def execLil (rd : Reg) (imm : BitVec 16) (s : State) : Result := .next (s.setReg rd (toWord (sext16 imm)))

/-- LIH (40_alu.md R115): the low half of RD is kept. -/
def execLih (rd : Reg) (imm : BitVec 16) (s : State) : Result :=
  .next (s.setReg rd (imm ++ (s.reg rd).extractLsb' 0 16))

/-- ADD (40_alu.md R117). -/
def execAdd (rd rs1 rs2 : Reg) (m : Ovf) (s : State) : Result :=
  .next (s.setApply rd m (s.x rs1 + s.x rs2))

/-- SUB (40_alu.md R118). -/
def execSub (rd rs1 rs2 : Reg) (m : Ovf) (s : State) : Result :=
  .next (s.setApply rd m (s.x rs1 - s.x rs2))

/-- ADDI (40_alu.md R116). -/
def execAddi (rd rs1 : Reg) (imm : BitVec 16) (s : State) : Result :=
  .next (s.setApply rd .wrap (s.x rs1 + sext16 imm))

/-- MUL.S (40_alu.md R119). -/
def execMulS (rd rs1 rs2 : Reg) (m : Ovf) (s : State) : Result := mulAt .sample rd rs1 rs2 m s

/-- MUL.H (40_alu.md R119). -/
def execMulH (rd rs1 rs2 : Reg) (m : Ovf) (s : State) : Result := mulAt .half rd rs1 rs2 m s

/-- MUL.Q (40_alu.md R119). -/
def execMulQ (rd rs1 rs2 : Reg) (m : Ovf) (s : State) : Result := mulAt .quarter rd rs1 rs2 m s

/-- DIV.S (40_alu.md R120). -/
def execDivS (rd rs1 rs2 : Reg) (m : Ovf) (s : State) : Result :=
  divAt (.divS rd rs1 rs2 m) .sample rd rs1 rs2 m s

/-- DIV.H (40_alu.md R120). -/
def execDivH (rd rs1 rs2 : Reg) (m : Ovf) (s : State) : Result :=
  divAt (.divH rd rs1 rs2 m) .half rd rs1 rs2 m s

/-- DIV.Q (40_alu.md R120). -/
def execDivQ (rd rs1 rs2 : Reg) (m : Ovf) (s : State) : Result :=
  divAt (.divQ rd rs1 rs2 m) .quarter rd rs1 rs2 m s

/-- IMUL (40_alu.md R121). -/
def execImul (rd rs1 rs2 : Reg) (m : Ovf) (s : State) : Result :=
  .next (s.setApply rd m (s.x rs1 * s.x rs2))

/-- IDIV (40_alu.md R122). -/
def execIdiv (rd rs1 rs2 : Reg) (m : Ovf) (s : State) : Result :=
  .next (if s.x rs2 = 0 then faultOf (.idiv rd rs1 rs2 m) .divZero s
    else s.setApply rd m (tdiv (s.x rs1) (s.x rs2)))

/-- ASH (40_alu.md R123). -/
def execAsh (rd rs1 rs2 : Reg) (m : Ovf) (s : State) : Result :=
  .next (s.setApply rd m (ashValue (s.x rs1) (s.x rs2)))

/-- SHLI (40_alu.md R124): a bit operation, OV unchanged. -/
def execShli (rd rs1 : Reg) (sh : BitVec 5) (s : State) : Result :=
  .next (s.setReg rd (s.reg rs1 <<< sh.toNat))

/-- SRAI (40_alu.md R125). -/
def execSrai (rd rs1 : Reg) (sh : BitVec 5) (s : State) : Result :=
  .next (s.setReg rd (toWord (asr (s.x rs1) sh.toNat)))

/-- SRLI (40_alu.md R126). -/
def execSrli (rd rs1 : Reg) (sh : BitVec 5) (s : State) : Result :=
  .next (s.setReg rd (toWord (fdiv (s.ux rs1 : Int) (pow2 sh.toNat))))

/-- FLOOR.S (40_alu.md R127). -/
def execFloorS (rd rs1 : Reg) (s : State) : Result := floorAt .sample rd rs1 s

/-- FLOOR.H (40_alu.md R127). -/
def execFloorH (rd rs1 : Reg) (s : State) : Result := floorAt .half rd rs1 s

/-- FLOOR.Q (40_alu.md R127). -/
def execFloorQ (rd rs1 : Reg) (s : State) : Result := floorAt .quarter rd rs1 s

/-- FRACT.S (40_alu.md R128). -/
def execFractS (rd rs1 : Reg) (s : State) : Result := fractAt .sample rd rs1 s

/-- FRACT.H (40_alu.md R128). -/
def execFractH (rd rs1 : Reg) (s : State) : Result := fractAt .half rd rs1 s

/-- FRACT.Q (40_alu.md R128). -/
def execFractQ (rd rs1 : Reg) (s : State) : Result := fractAt .quarter rd rs1 s

/-- SQRT.S (40_alu.md R129). -/
def execSqrtS (rd rs1 : Reg) (s : State) : Result := sqrtAt (.sqrtS rd rs1) .sample rd rs1 s

/-- SQRT.H (40_alu.md R129). -/
def execSqrtH (rd rs1 : Reg) (s : State) : Result := sqrtAt (.sqrtH rd rs1) .half rd rs1 s

/-- SQRT.Q (40_alu.md R129). -/
def execSqrtQ (rd rs1 : Reg) (s : State) : Result := sqrtAt (.sqrtQ rd rs1) .quarter rd rs1 s

/-- CVT.S.S (40_alu.md R131). -/
def execCvtSS (rd rs1 : Reg) (m : Ovf) (s : State) : Result := cvtAt .sample .sample rd rs1 m s

/-- CVT.S.H (40_alu.md R131). -/
def execCvtSH (rd rs1 : Reg) (m : Ovf) (s : State) : Result := cvtAt .sample .half rd rs1 m s

/-- CVT.S.Q (40_alu.md R131). -/
def execCvtSQ (rd rs1 : Reg) (m : Ovf) (s : State) : Result := cvtAt .sample .quarter rd rs1 m s

/-- CVT.H.S (40_alu.md R131). -/
def execCvtHS (rd rs1 : Reg) (m : Ovf) (s : State) : Result := cvtAt .half .sample rd rs1 m s

/-- CVT.H.H (40_alu.md R131). -/
def execCvtHH (rd rs1 : Reg) (m : Ovf) (s : State) : Result := cvtAt .half .half rd rs1 m s

/-- CVT.H.Q (40_alu.md R131). -/
def execCvtHQ (rd rs1 : Reg) (m : Ovf) (s : State) : Result := cvtAt .half .quarter rd rs1 m s

/-- CVT.Q.S (40_alu.md R131). -/
def execCvtQS (rd rs1 : Reg) (m : Ovf) (s : State) : Result := cvtAt .quarter .sample rd rs1 m s

/-- CVT.Q.H (40_alu.md R131). -/
def execCvtQH (rd rs1 : Reg) (m : Ovf) (s : State) : Result := cvtAt .quarter .half rd rs1 m s

/-- CVT.Q.Q (40_alu.md R131). -/
def execCvtQQ (rd rs1 : Reg) (m : Ovf) (s : State) : Result := cvtAt .quarter .quarter rd rs1 m s

end Sys2Proof.Machine
end

