-- ==== Sys2Proof/Machine/Table.lean ====
section
/-! DEFINITION. The table-interpolation engine (41_tables.md R150 to R161). -/

namespace Sys2Proof.Machine

open Sys2Proof

/-- The ROM that TLI's table bit names (30_encoding.md R85). -/
def interpRom (c : Config) : InterpTable → Vector Word 513
  | .sin => c.sinRom
  | .exp2 => c.exp2Rom

/-- ROM(t, i) for the index of a lookup, 0 to 511 (41_tables.md R151). -/
def romLow (c : Config) (t : InterpTable) (i : BitVec 9) : Int :=
  sint ((interpRom c t)[i.toNat]'(by have := i.isLt; omega))

/-- ROM(t, i + 1); the guard entry 512 makes it defined for 511 (41_tables.md R151). -/
def romHigh (c : Config) (t : InterpTable) (i : BitVec 9) : Int :=
  sint ((interpRom c t)[i.toNat + 1]'(by have := i.isLt; omega))

/-- Reduce by `INTERP_PRODUCT`: EXACT keeps the integer, WRAP32 wraps it (41_tables.md R151). -/
def interpReduce (c : Config) (z : Int) : Int :=
  match c.interpProduct with
  | .exactProduct => z
  | .wrapProduct => wrap32 z

/-- The interpolated value in Sample format (41_tables.md R151): the index is the high 9 bits of the
fractional field, the fraction the low F_W - 9 bits. -/
def interpSample (c : Config) (t : InterpTable) (w : Width) (x : Int) : Int :=
  let k := frac c w - 9
  let i := BitVec.ofInt 9 (asr x k)
  let p := interpReduce c ((romHigh c t i - romLow c t i) * fmod x (pow2 k))
  interpReduce c (romLow c t i + asr p k)

/-- `INTERP(t, W, x)` (41_tables.md R151): the interpolated value rescaled to width W. -/
def interp (c : Config) (t : InterpTable) (w : Width) (x : Int) : Int :=
  asr (interpSample c t w x) (c.fS - frac c w)

/-- TLI at a width (41_tables.md R152). -/
def tliAt (w : Width) (rd rs1 : Reg) (t : InterpTable) (s : State) : Result :=
  .next (s.setResult rd (interp s.cfg t w (s.x rs1)))

/-- SIN at a width (41_tables.md R153). -/
def sinAt (w : Width) (rd rs1 : Reg) (s : State) : Result :=
  .next (s.setResult rd (interp s.cfg .sin w (s.x rs1)))

/-- COS at a width (41_tables.md R154): a quarter cycle ahead, wrapping silently. -/
def cosAt (w : Width) (rd rs1 : Reg) (s : State) : Result :=
  .next (s.setResult rd (interp s.cfg .sin w (wrap32 (s.x rs1 + pow2 (frac s.cfg w - 2)))))

/-- The shifted unit of EXP2CORE (41_tables.md R155). -/
def shiftedUnit (F : Nat) (n : Int) : Int :=
  if 0 ≤ n then pow2 (F + n.toNat) else fdiv (pow2 F) (pow2 (-n).toNat)

/-- `EXP2CORE(W, y, M)` before its `apply` (41_tables.md R155); y is an unbounded integer. -/
def exp2Core (c : Config) (w : Width) (y : Int) : Int :=
  let F := frac c w
  let su := shiftedUnit F (fdiv y (pow2 F))
  su + fdiv (su * interp c .exp2 w (fmod y (pow2 F))) (pow2 F)

/-- EXP2 at a width (41_tables.md R155). -/
def exp2At (w : Width) (rd rs1 : Reg) (m : Ovf) (s : State) : Result :=
  .next (s.setApply rd m (exp2Core s.cfg w (s.x rs1)))

/-- EXP10 at a width, with k the constant log2(10) of that width (41_tables.md R156): the product with it is
exact. -/
def exp10At (w : Width) (k : Word) (rd rs1 : Reg) (m : Ovf) (s : State) : Result :=
  .next (s.setApply rd m (exp2Core s.cfg w (fdiv (s.x rs1 * sint k) (pow2 (frac s.cfg w)))))

/-- sin(k x) of the odd-harmonic commands: the phase is multiplied by an integer and wrapped
(41_tables.md R157). -/
def harmonic (c : Config) (w : Width) (k x : Int) : Int := interp c .sin w (wrap32 (k * x))

/-- sin(3x)/3 + sin(5x)/5 (41_tables.md R157, R158). -/
def upperHarmonics (c : Config) (w : Width) (x : Int) : Int :=
  tdiv (harmonic c w 3 x) 3 + tdiv (harmonic c w 5 x) 5

/-- SQ135 at a width (41_tables.md R157). -/
def sq135At (w : Width) (rd rs1 : Reg) (s : State) : Result :=
  .next (s.setResult rd (interp s.cfg .sin w (s.x rs1) + upperHarmonics s.cfg w (s.x rs1)))

/-- SQ35 at a width (41_tables.md R158). -/
def sq35At (w : Width) (rd rs1 : Reg) (s : State) : Result :=
  .next (s.setResult rd (upperHarmonics s.cfg w (s.x rs1)))

/-- ROM(t, i) for any integer index: none where the table has no such entry (41_tables.md R161). -/
def romAt (c : Config) (t : RomTable) (i : Int) : Option Word :=
  if i < 0 then none
  else
    match t with
    | .sin => c.sinRom[i.toNat]?
    | .exp2 => c.exp2Rom[i.toNat]?
    | .note => c.noteRom[i.toNat]?

/-- ROMRD of a table (41_tables.md R161). -/
def romrdAt (i : Instr) (t : RomTable) (rd rs1 : Reg) (s : State) : Result :=
  .next (match romAt s.cfg t (s.x rs1) with
    | some w => s.setReg rd w
    | none => faultOf i .romIndex s)

/-- The frequency of a note word, as an integer before its `result32` (41_tables.md R159): none below 0.0
and above 127.0, where NTOF faults. -/
def noteFreq (c : Config) (a : Int) : Option Int :=
  let i := fdiv a (pow2 c.fH)
  let fr := fmod a (pow2 c.fH)
  match romAt c .note i, romAt c .note (i + 1) with
  | some lo, some hi =>
    some (if fr = 0 then sint lo else sint lo + fdiv ((sint hi - sint lo) * fr) (pow2 c.fH))
  | some lo, none => if fr = 0 then some (sint lo) else none
  | none, _ => none

/-- The note of a positive frequency ratio word q (41_tables.md R160): octave-accurate. -/
def octaveNote (c : Config) (q : Int) : Int :=
  shl (69 + 12 * ((ilog2 q.toNat : Int) - (c.fH : Int))) c.fH

/-- TLI.S (41_tables.md R152). -/
def execTliS (rd rs1 : Reg) (t : InterpTable) (s : State) : Result := tliAt .sample rd rs1 t s

/-- TLI.H (41_tables.md R152). -/
def execTliH (rd rs1 : Reg) (t : InterpTable) (s : State) : Result := tliAt .half rd rs1 t s

/-- SIN.S (41_tables.md R153). -/
def execSinS (rd rs1 : Reg) (s : State) : Result := sinAt .sample rd rs1 s

/-- SIN.H (41_tables.md R153). -/
def execSinH (rd rs1 : Reg) (s : State) : Result := sinAt .half rd rs1 s

/-- COS.S (41_tables.md R154). -/
def execCosS (rd rs1 : Reg) (s : State) : Result := cosAt .sample rd rs1 s

/-- COS.H (41_tables.md R154). -/
def execCosH (rd rs1 : Reg) (s : State) : Result := cosAt .half rd rs1 s

/-- EXP2.S (41_tables.md R155). -/
def execExp2S (rd rs1 : Reg) (m : Ovf) (s : State) : Result := exp2At .sample rd rs1 m s

/-- EXP2.H (41_tables.md R155). -/
def execExp2H (rd rs1 : Reg) (m : Ovf) (s : State) : Result := exp2At .half rd rs1 m s

/-- EXP10.S (41_tables.md R156). -/
def execExp10S (rd rs1 : Reg) (m : Ovf) (s : State) : Result := exp10At .sample s.cfg.kLog10S rd rs1 m s

/-- EXP10.H (41_tables.md R156). -/
def execExp10H (rd rs1 : Reg) (m : Ovf) (s : State) : Result := exp10At .half s.cfg.kLog10H rd rs1 m s

/-- SQ135.S (41_tables.md R157). -/
def execSq135S (rd rs1 : Reg) (s : State) : Result := sq135At .sample rd rs1 s

/-- SQ135.H (41_tables.md R157). -/
def execSq135H (rd rs1 : Reg) (s : State) : Result := sq135At .half rd rs1 s

/-- SQ35.S (41_tables.md R158). -/
def execSq35S (rd rs1 : Reg) (s : State) : Result := sq35At .sample rd rs1 s

/-- SQ35.H (41_tables.md R158). -/
def execSq35H (rd rs1 : Reg) (s : State) : Result := sq35At .half rd rs1 s

/-- NTOF (41_tables.md R159). -/
def execNtof (rd rs1 : Reg) (s : State) : Result :=
  .next (match noteFreq s.cfg (s.x rs1) with
    | some z => s.setResult rd z
    | none => faultOf (.ntof rd rs1) .noteRange s)

/-- FTON (41_tables.md R160). -/
def execFton (rd rs1 : Reg) (s : State) : Result :=
  .next (if fdiv (s.x rs1) 440 ≤ 0 then faultOf (.fton rd rs1) .freqRange s
    else s.setResult rd (octaveNote s.cfg (fdiv (s.x rs1) 440)))

/-- ROMRD of the SIN ROM (41_tables.md R161). -/
def execRomrdSin (rd rs1 : Reg) (s : State) : Result := romrdAt (.romrdSin rd rs1) .sin rd rs1 s

/-- ROMRD of the EXP2 ROM (41_tables.md R161). -/
def execRomrdExp2 (rd rs1 : Reg) (s : State) : Result := romrdAt (.romrdExp2 rd rs1) .exp2 rd rs1 s

/-- ROMRD of the NOTE ROM (41_tables.md R161). -/
def execRomrdNote (rd rs1 : Reg) (s : State) : Result := romrdAt (.romrdNote rd rs1) .note rd rs1 s

end Sys2Proof.Machine
end

