-- ==== Sys2Proof/Machine/Convert.lean ====
section
/-! DEFINITION. The unit conversions of CONV (43_conversions.md R190 to R200). -/

namespace Sys2Proof.Machine

open Sys2Proof

/-- F_S - F_H, the rescale between Sample and Half. -/
def sampleHalf (c : Config) : Nat := c.fS - c.fH

/-- DB2G (43_conversions.md R191): exp2(db/6), the division rounds toward zero. -/
def execDb2g (rd rs1 : Reg) (m : Ovf) (s : State) : Result :=
  .next (s.setApply rd m (exp2Core s.cfg .sample (shl (tdiv (s.x rs1) 6) (sampleHalf s.cfg))))

/-- G2DB (43_conversions.md R192): log2(gain) * 6; no gain at or below 0 has a log2. -/
def execG2db (rd rs1 : Reg) (m : Ovf) (s : State) : Result :=
  .next (if s.x rs1 ≤ 0 then faultOf (.g2db rd rs1 m) .logDomain s
    else s.setApply rd m (sint (log2Fn s.cfg (s.reg rs1)) * 6))

/-- (ev - 1) * 0.0002 in Sample, before its `apply` (43_conversions.md R193). -/
def envSample (c : Config) (a : Int) : Int :=
  shl (fixmul c.fH (a - one c .half) (sint c.k0002H)) (sampleHalf c)

/-- EV2S (43_conversions.md R193): the Sample conversion may set OV; a negative value faults, and the fault
discards the OV change (60_exceptions.md R305). -/
def execEv2s (rd rs1 : Reg) (m : Ovf) (s : State) : Result :=
  let t := envSample s.cfg (s.x rs1)
  .next (if applyVal m t < 0 then faultOf (.ev2s rd rs1 m) .sqrtNeg s
    else (s.raiseOv (overflows m t)).setResult rd (rootValue s.cfg .sample (applyVal m t)))

/-- S2EV (43_conversions.md R194): half² * 5000 + 1. -/
def execS2ev (rd rs1 : Reg) (m : Ovf) (s : State) : Result :=
  let h := asr (s.x rs1) (sampleHalf s.cfg)
  .next (s.setApply rd m (fixmul s.cfg.fH h h * 5000 + one s.cfg .half))

/-- VOL2S (43_conversions.md R195): (4 v)². -/
def execVol2s (rd rs1 : Reg) (m : Ovf) (s : State) : Result :=
  .next (s.setApply rd m (fixmul s.cfg.fS (4 * s.x rs1) (4 * s.x rs1)))

/-- S2VOL (43_conversions.md R196): sqrt(sample) * 0.25; M has no effect. -/
def execS2vol (rd rs1 : Reg) (m : Ovf) (s : State) : Result :=
  .next (if s.x rs1 < 0 then faultOf (.s2vol rd rs1 m) .sqrtNeg s
    else s.setResult rd (asr (rootValue s.cfg .sample (s.x rs1)) 2))

/-- P2B (43_conversions.md R197): param >= 0.5; M has no effect. -/
def execP2b (rd rs1 : Reg) (_m : Ovf) (s : State) : Result :=
  .next (s.setResult rd (if pow2 (s.cfg.fS - 1) ≤ s.x rs1 then 1 else 0))

/-- P2F (43_conversions.md R198): param² * 19980 + 20. -/
def execP2f (rd rs1 : Reg) (m : Ovf) (s : State) : Result :=
  let q := fixmul s.cfg.fS (s.x rs1) (s.x rs1)
  .next (s.setApply rd m (asr q (sampleHalf s.cfg) * 19980 + 20 * one s.cfg .half))

/-- The Q curve before its `apply` (43_conversions.md R199): two slopes that meet at 0.5. -/
def qCurve (c : Config) (p : Int) : Int :=
  let h := pow2 (c.fS - 1)
  if p < h then sint c.qc0 + fixmul c.fS p (sint c.qs1)
  else sint c.qc0 + fixmul c.fS h (sint c.qs1) + fixmul c.fS (p - h) (sint c.qs2)

/-- P2Q (43_conversions.md R199). -/
def execP2q (rd rs1 : Reg) (m : Ovf) (s : State) : Result :=
  .next (s.setApply rd m (qCurve s.cfg (s.x rs1)))

/-- P2ST (43_conversions.md R200): param⁴ * 480000, in Quarter. -/
def execP2st (rd rs1 : Reg) (m : Ovf) (s : State) : Result :=
  let p2 := fixmul s.cfg.fS (s.x rs1) (s.x rs1)
  .next (s.setApply rd m (asr (fixmul s.cfg.fS p2 p2) (s.cfg.fS - s.cfg.fQ) * 480000))

end Sys2Proof.Machine
end

