-- ==== Sys2Proof/Machine/Env.lean ====
section
/-! DEFINITION. The envelope generator (44_envelope.md R210 to R218). -/

namespace Sys2Proof.Machine

open Sys2Proof

/-- The value of an envelope before it saturates (44_envelope.md R211); every intermediate is exact. -/
def envExact (c : Config) (e : Envelope) : Int :=
  let mul := fixmul c.fS
  let unit := one c .sample
  match e.stage with
  | .attack => mul (sint e.position) (sint e.attackRate)
  | .decay =>
    let f := unit - mul (sint e.position) (sint e.decayRate)
    mul f f + mul (sint e.sustain) (unit - mul f f)
  | .sustain => sint e.sustain
  | .release =>
    let g := unit - mul (sint e.position) (sint e.releaseRate)
    mul (sint e.releaseValue) (mul g g)
  | .finished => 0

/-- The word that `ENV_VALUE(e)` returns (44_envelope.md R211). -/
def State.envValue (s : State) (e : Fin 8) : Word := applyWord .sat (envExact s.cfg (s.env e))

/-- STATUS.OV after `ENV_VALUE(e)`; no envelope word changes (44_envelope.md R211). -/
def State.afterEnvValue (s : State) (e : Fin 8) : State :=
  s.raiseOv (overflows .sat (envExact s.cfg (s.env e)))

/-- The stage after one that has ended, and the rate that decides its end (44_envelope.md R217); Sustain and
Finished do not end. -/
def Envelope.timed (e : Envelope) : Option (EnvStage × Word) :=
  match e.stage with
  | .attack => some (.decay, e.attackRate)
  | .decay => some (.sustain, e.decayRate)
  | .release => some (.finished, e.releaseRate)
  | .sustain => none
  | .finished => none

/-- `ENV_ADVANCE(e)` (44_envelope.md R217): nothing in mode NONE; in mode STEP the position grows, saturating,
and the stage ends where position times rate reaches 1.0. -/
def State.envAdvance (s : State) (e : Fin 8) : State :=
  match s.cfg.envAdvance, (s.env e).timed with
  | .step, some (after, rate) =>
    let z := sint (s.env e).position + sint s.cfg.envStep
    let pos := applyVal .sat z
    let ended := one s.cfg .sample ≤ fixmul s.cfg.fS pos (sint rate)
    (s.raiseOv (overflows .sat z)).setEnv e
      (if ended then { s.env e with stage := after, position := 0 }
       else { s.env e with position := toWord pos })
  | _, _ => s

/-- ETRIG (44_envelope.md R213). -/
def execEtrig (vi : VoiceIdx) (s : State) : Result :=
  .next (s.setEnv (slotOf vi) { s.env (slotOf vi) with stage := .attack, position := 0 })

/-- EOFF (44_envelope.md R214): the current value becomes the release value. -/
def execEoff (vi : VoiceIdx) (s : State) : Result :=
  .next ((s.afterEnvValue (slotOf vi)).setEnv (slotOf vi)
    { s.env (slotOf vi) with releaseValue := s.envValue (slotOf vi), stage := .release, position := 0 })

/-- EVAL (44_envelope.md R215). -/
def execEval (rd : Reg) (vi : VoiceIdx) (s : State) : Result :=
  .next ((s.afterEnvValue (slotOf vi)).setReg rd (s.envValue (slotOf vi)))

/-- EADV (44_envelope.md R216). -/
def execEadv (vi : VoiceIdx) (s : State) : Result := .next (s.envAdvance (slotOf vi))

end Sys2Proof.Machine
end

