-- ==== Sys2Proof/Machine/VoiceUnit.lean ====
section
/-! DEFINITION. Voices, portamento and phase accumulators (45_voice.md R230 to R239). -/

namespace Sys2Proof.Machine

open Sys2Proof

/-- `VOICE_ON` on one voice (45_voice.md R230): the velocity is not stored; VIB_PHASE and OSC_PHASE keep
their values. `knob` is the device's SLIDE_TIME. -/
def Voice.turnOn (v : Voice) (note _velocity detune pan knob : Word) : Voice :=
  { v with isOn := true, note := note, currentNote := note, detune := detune, pan := pan,
           slideActive := false, slideDelta := 0, slideRemaining := 0, destNote := note,
           slideTime := knob }

/-- `VOICE_ON(v, note, velocity, detune, pan)` (45_voice.md R230). -/
def State.voiceOn (s : State) (v : Fin 8) (note velocity detune pan : Word) : State :=
  s.setVoice v ((s.voice v).turnOn note velocity detune pan s.knobs.slideTime)

/-- The slide time in whole samples (45_voice.md R231). -/
def slideSamples (c : Config) (v : Voice) : Int := fdiv (sint v.slideTime) (pow2 c.fQ)

/-- `SLIDE_START` on one voice (45_voice.md R231): it lands at once where the slide time is below one
sample. -/
def Voice.slideStart (c : Config) (v : Voice) (target : Word) : Voice :=
  let t := slideSamples c v
  if t ≤ 0 then
    { v with currentNote := target, note := target, destNote := target, slideActive := false,
             slideDelta := 0, slideRemaining := 0 }
  else
    { v with destNote := target, slideDelta := toWord (wrap32 (tdiv (sint target - sint v.currentNote) t)),
             slideRemaining := toWord t, slideActive := true }

/-- `GETNOTE` on one voice (45_voice.md R232): the note after this sample is the voice's CURRENT_NOTE. -/
def Voice.getNote (v : Voice) : Voice :=
  if v.slideActive then
    if uint v.slideRemaining ≤ 1 then
      { v with currentNote := v.destNote, note := v.destNote, slideActive := false, slideRemaining := 0 }
    else
      { v with slideRemaining := v.slideRemaining - 1,
               currentNote := toWord (wrap32 (sint v.currentNote + sint v.slideDelta)) }
  else v

/-- The phase sum of two words at a width (45_voice.md R237). -/
def phaseSum (c : Config) (w : Width) (a b : Int) : Int := fract (frac c w) (a + b)

/-- PHACC at a width (45_voice.md R237). -/
def phaccAt (w : Width) (rd rs1 rs2 : Reg) (s : State) : Result :=
  .next (s.setResult rd (phaseSum s.cfg w (s.x rs1) (s.x rs2)))

/-- PHACC.S (45_voice.md R237). -/
def execPhaccS (rd rs1 rs2 : Reg) (s : State) : Result := phaccAt .sample rd rs1 rs2 s

/-- PHACC.H (45_voice.md R237). -/
def execPhaccH (rd rs1 rs2 : Reg) (s : State) : Result := phaccAt .half rd rs1 rs2 s

/-- PHACC.Q (45_voice.md R237). -/
def execPhaccQ (rd rs1 rs2 : Reg) (s : State) : Result := phaccAt .quarter rd rs1 rs2 s

/-- VON (45_voice.md R233): note, velocity, detune and pan come from RS1 to RS1+3; a quad that passes r15 has
no legal word (30_encoding.md R85, log 15). -/
def execVon (rs1 : Reg) (vi : VoiceIdx) (s : State) : Result :=
  .next (if quadFits rs1 then
      s.voiceOn (slotOf vi) (s.reg rs1) (s.reg (rs1 + 1)) (s.reg (rs1 + 2)) (s.reg (rs1 + 3))
    else faultOf (.von rs1 vi) .illegal s)

/-- VOFF (45_voice.md R234). -/
def execVoff (vi : VoiceIdx) (s : State) : Result :=
  .next (s.setVoice (slotOf vi) { s.voice (slotOf vi) with isOn := false })

/-- VSLIDE (45_voice.md R235). -/
def execVslide (rs1 : Reg) (vi : VoiceIdx) (s : State) : Result :=
  .next (s.setVoice (slotOf vi) ((s.voice (slotOf vi)).slideStart s.cfg (s.reg rs1)))

/-- VGETN (45_voice.md R236). -/
def execVgetn (rd : Reg) (vi : VoiceIdx) (s : State) : Result :=
  .next ((s.setVoice (slotOf vi) (s.voice (slotOf vi)).getNote).setReg rd
    (s.voice (slotOf vi)).getNote.currentNote)

/-- VPHADV (45_voice.md R238). -/
def execVphadv (rs1 : Reg) (vi : VoiceIdx) (s : State) : Result :=
  .next (s.setVoice (slotOf vi)
    { s.voice (slotOf vi) with
      vibPhase := result32 (phaseSum s.cfg .sample (sint (s.voice (slotOf vi)).vibPhase) (s.x rs1)) })

end Sys2Proof.Machine
end

