-- ==== Sys2Proof/Machine/Engine.lean ====
section
/-! DEFINITION. The synth engine: event queue, voice allocation, block rendering (46_engine.md R250 to
R266). -/

namespace Sys2Proof.Machine

open Sys2Proof

/-! The event queue. -/

/-- Fill the first free slot of a scan; where none is free nothing changes (46_engine.md R250). -/
def State.enqueueIn (s : State) (e : Event) : List (Fin 8) → State
  | [] => s
  | k :: rest => if (s.event k).kind = .free then s.setEvent k e else s.enqueueIn e rest

/-- `ENQUEUE(kind, delta, note, velocity)` (46_engine.md R250). -/
def State.enqueue (s : State) (e : Event) : State := s.enqueueIn e slots

/-- `CLEAR(s)` (46_engine.md R259). -/
def State.clearEvent (s : State) (k : Fin 8) : State := s.setEvent k Event.cleared

/-! Voice allocation. -/

/-- The Sample fraction of the claimed voice with index j (46_engine.md R256). -/
def unisonFraction (c : Config) (U j : Nat) : Int := tdiv (shl (j : Int) c.fS) (max ((U : Int) - 1) 1)

/-- The detune of a claimed voice (46_engine.md R256). -/
def unisonDetune (s : State) (f : Int) : Word :=
  result32 (asr (f * sint s.knobs.detuneSpread) s.cfg.fS)

/-- The pan of a claimed voice before it saturates (46_engine.md R256). -/
def unisonPan (s : State) (f : Int) : Int :=
  asr ((2 * f - one s.cfg .sample) * sint s.knobs.panSpread) s.cfg.fS

/-- Claim voice v as the unison voice with index j (46_engine.md R256). -/
def State.claim (s : State) (v : Fin 8) (U j : Nat) (note velocity : Word) : State :=
  let f := unisonFraction s.cfg U j
  (s.raiseOv (overflows .sat (unisonPan s f))).voiceOn v note velocity (unisonDetune s f)
    (applyWord .sat (unisonPan s f))

/-- The scan of ALLOCATE over the voices that are left, after k claims (46_engine.md R256). -/
def State.allocateIn (s : State) (note velocity : Word) (k : Nat) : List (Fin 8) → State
  | [] => s
  | v :: rest =>
    if uint s.knobs.unisono ≤ k then s
    else if (s.voice v).isOn then s.allocateIn note velocity k rest
    else (s.claim v (uint s.knobs.unisono) (uint s.knobs.unisono - 1 - k) note velocity).allocateIn
      note velocity (k + 1) rest

/-- `ALLOCATE(note, velocity)` (46_engine.md R256): up to UNISONO free voices, no voice stealing. -/
def State.allocate (s : State) (note velocity : Word) : State := s.allocateIn note velocity 0 slots

/-- RELEASE on one voice (46_engine.md R258): NOTE must match in all 32 bits. -/
def State.releaseVoice (note : Word) (s : State) (v : Fin 8) : State :=
  if (s.voice v).isOn ∧ (s.voice v).note = note then s.setVoice v { s.voice v with isOn := false } else s

/-- `RELEASE(note)` (46_engine.md R258). -/
def State.release (s : State) (note : Word) : State := slots.foldl (State.releaseVoice note) s

/-- `FIRE(s)` (46_engine.md R255). -/
def State.fire (s : State) (k : Fin 8) : State :=
  match (s.event k).kind with
  | .noteOn => s.allocate (s.event k).note (s.event k).velocity
  | .noteOff => s.release (s.event k).note
  | .free => s

/-! Rendering. -/

/-- The view that VOICE_RENDER takes of voice v (00_scope.md R17). -/
def State.renderView (s : State) (v : Fin 8) (envValue : Word) : RenderView :=
  { voice := BitVec.ofNat 32 v.val, currentNote := (s.voice v).currentNote, detune := (s.voice v).detune,
    pan := (s.voice v).pan, vibPhase := (s.voice v).vibPhase, oscPhase := (s.voice v).oscPhase,
    envValue := envValue, vibRate := s.knobs.vibRate, vibAmount := s.knobs.vibAmount }

/-- Add a sample into a buffer word, saturating (46_engine.md R262). -/
def State.accumulate (s : State) (a : Nat) (sample : Word) : State :=
  (s.raiseOv (overflows .sat (sint (s.bufRead a) + sint sample))).bufWrite a
    (applyWord .sat (sint (s.bufRead a) + sint sample))

/-- Store the phases that VOICE_RENDER returned (46_engine.md R262). -/
def State.storePhases (s : State) (v : Fin 8) (out : RenderOut) : State :=
  s.setVoice v { s.voice v with oscPhase := out.oscPhase, vibPhase := out.vibPhase }

/-- One voice that is on renders one sample into buffer word a (46_engine.md R262). -/
def State.renderOn (s : State) (a : Nat) (v : Fin 8) : State :=
  let s1 := s.setVoice v (s.voice v).getNote
  let s2 := s1.afterEnvValue v
  let out := voiceRender s.cfg (s2.renderView v (s1.envValue v))
  ((s2.accumulate a out.sample).storePhases v out).envAdvance v

/-- One voice's share of one sample: a voice that is off does nothing (46_engine.md R262). -/
def State.renderVoice (a : Nat) (s : State) (v : Fin 8) : State :=
  if (s.voice v).isOn then s.renderOn a v else s

/-- One sample, voices in ascending order (46_engine.md R262). -/
def State.renderSample (s : State) (a : Nat) : State := slots.foldl (State.renderVoice a) s

/-- `RENDER(start, n)`: n samples in order (46_engine.md R262). -/
def State.render (s : State) (start : Nat) : Nat → State
  | 0 => s
  | n + 1 => (s.renderSample start).render (start + 1) n

/-! The RUN loop. -/

/-- Step 1 for one slot, with `n` the samples to the next event so far (46_engine.md R254): fire and clear
an event that is due, else bound n by its DELTA. -/
def fireSlot (ns : Nat × State) (k : Fin 8) : Nat × State :=
  if (ns.2.event k).kind = .free then ns
  else if (ns.2.event k).delta = 0 then (ns.1, (ns.2.fire k).clearEvent k)
  else (min ns.1 (uint (ns.2.event k).delta), ns.2)

/-- Step 1 over all slots (46_engine.md R254, R255). -/
def State.fireDue (s : State) (remaining : Nat) : Nat × State := slots.foldl fireSlot (remaining, s)

/-- Step 5 for one slot (46_engine.md R254). -/
def State.elapseSlot (n : Nat) (s : State) (k : Fin 8) : State :=
  if (s.event k).kind = .free then s
  else s.setEvent k { s.event k with delta := (s.event k).delta - BitVec.ofNat 32 n }

/-- Step 5 over all slots (46_engine.md R254). -/
def State.elapse (s : State) (n : Nat) : State := slots.foldl (State.elapseSlot n) s

/-- The advance of the song position by one pass (46_engine.md R260). -/
def songAdvance (c : Config) (n : Nat) : Nat := n * c.songUnits / sampleRate

/-- The passes of RUN (46_engine.md R254): `fuel` bounds their number, `start` is the next buffer word and
`remaining` the samples left. Each pass renders at least one sample, so `remaining` passes are enough
(46_engine.md R263). -/
def runPasses : Nat → Nat → Nat → Nat → State → Nat × State
  | 0, _, _, pos, s => (pos, s)
  | fuel + 1, start, remaining, pos, s =>
    if remaining = 0 then (pos, s)
    else
      let due := s.fireDue remaining
      let rendered := (due.2.render start due.1).elapse due.1
      runPasses fuel (start + due.1) (remaining - due.1) ((pos + songAdvance s.cfg due.1) % 2 ^ 32) rendered

/-- NOTEON (46_engine.md R251). -/
def execNoteon (rs1 rs2 rs3 : Reg) (s : State) : Result :=
  .next (s.enqueue { kind := .noteOn, delta := s.reg rs3, note := s.reg rs1, velocity := s.reg rs2 })

/-- NOTEOFF (46_engine.md R252). -/
def execNoteoff (rs1 rs2 : Reg) (s : State) : Result :=
  .next (s.enqueue { kind := .noteOff, delta := s.reg rs2, note := s.reg rs1, velocity := 0 })

/-- ANOFF on one voice (46_engine.md R264). -/
def State.silence (s : State) (v : Fin 8) : State := s.setVoice v { s.voice v with isOn := false }

/-- ANOFF (46_engine.md R264): voices off, note log and event queue cleared; envelopes and BUF unchanged. -/
def execAnoff (s : State) : Result :=
  .next (slots.foldl State.clearEvent
    { slots.foldl State.silence s with activeNotes := Vector.replicate 4 0, noteCount := 0 })

/-- RUN (46_engine.md R253, R254, R261): the descriptor is checked before any effect. -/
def execRun (rd rs1 rs2 : Reg) (s : State) : Result :=
  let len := descLen (s.reg rs2)
  let base := descBase (s.reg rs2)
  let done := runPasses len base len (s.ux rs1) s
  .next (if len = 0 then deviceError 1 s
    else if s.cfg.bufWords < base + len then deviceError 2 s
    else done.2.setReg rd (BitVec.ofNat 32 done.1))

end Sys2Proof.Machine
end

