-- ==== Sys2Proof/Machine/Rng.lean ====
section
/-! DEFINITION. The pseudo-random generator (42_rng.md R180 to R186). -/

namespace Sys2Proof.Machine

open Sys2Proof

/-- The seed after a draw: a wrapping multiply (42_rng.md R180). -/
def nextSeed (w : Word) : Word := toWord (wrap32 (sint w * lcgMult))

/-- RAND (42_rng.md R180): the output is extracted from the new seed; OV is unchanged. -/
def execRand (rd : Reg) (s : State) : Result :=
  .next ({ s with seed := nextSeed s.seed }.setReg rd (rngExtract s.cfg (nextSeed s.seed)))

/-- RSEED (42_rng.md R181). -/
def execRseed (rs1 : Reg) (s : State) : Result := .next { s with seed := s.reg rs1 }

/-- RGET (42_rng.md R182): reading does not draw. -/
def execRget (rd : Reg) (s : State) : Result := .next (s.setReg rd s.seed)

end Sys2Proof.Machine
end

