-- ==== Sys2Proof/Machine/Dispatch.lean ====
section
/-! DEFINITION. The dispatch of a command to its meaning, one arm per row of the opcode table (30_encoding.md
R88). -/

namespace Sys2Proof.Machine

open Sys2Proof

/-- Execute one command (10_state.md R20): every arm is one direct call of a meaning. -/
def exec (i : Instr) (s : State) : Host.Outcome State Fault Refusal :=
  match i with
  | .nop => Sys2Proof.Machine.execNop s
  | .lil rd imm => Sys2Proof.Machine.execLil rd imm s
  | .lih rd imm => Sys2Proof.Machine.execLih rd imm s
  | .add rd rs1 rs2 m => Sys2Proof.Machine.execAdd rd rs1 rs2 m s
  | .sub rd rs1 rs2 m => Sys2Proof.Machine.execSub rd rs1 rs2 m s
  | .addi rd rs1 imm => Sys2Proof.Machine.execAddi rd rs1 imm s
  | .mulS rd rs1 rs2 m => Sys2Proof.Machine.execMulS rd rs1 rs2 m s
  | .mulH rd rs1 rs2 m => Sys2Proof.Machine.execMulH rd rs1 rs2 m s
  | .mulQ rd rs1 rs2 m => Sys2Proof.Machine.execMulQ rd rs1 rs2 m s
  | .divS rd rs1 rs2 m => Sys2Proof.Machine.execDivS rd rs1 rs2 m s
  | .divH rd rs1 rs2 m => Sys2Proof.Machine.execDivH rd rs1 rs2 m s
  | .divQ rd rs1 rs2 m => Sys2Proof.Machine.execDivQ rd rs1 rs2 m s
  | .imul rd rs1 rs2 m => Sys2Proof.Machine.execImul rd rs1 rs2 m s
  | .idiv rd rs1 rs2 m => Sys2Proof.Machine.execIdiv rd rs1 rs2 m s
  | .ash rd rs1 rs2 m => Sys2Proof.Machine.execAsh rd rs1 rs2 m s
  | .shli rd rs1 sh => Sys2Proof.Machine.execShli rd rs1 sh s
  | .srai rd rs1 sh => Sys2Proof.Machine.execSrai rd rs1 sh s
  | .srli rd rs1 sh => Sys2Proof.Machine.execSrli rd rs1 sh s
  | .floorS rd rs1 => Sys2Proof.Machine.execFloorS rd rs1 s
  | .floorH rd rs1 => Sys2Proof.Machine.execFloorH rd rs1 s
  | .floorQ rd rs1 => Sys2Proof.Machine.execFloorQ rd rs1 s
  | .fractS rd rs1 => Sys2Proof.Machine.execFractS rd rs1 s
  | .fractH rd rs1 => Sys2Proof.Machine.execFractH rd rs1 s
  | .fractQ rd rs1 => Sys2Proof.Machine.execFractQ rd rs1 s
  | .sqrtS rd rs1 => Sys2Proof.Machine.execSqrtS rd rs1 s
  | .sqrtH rd rs1 => Sys2Proof.Machine.execSqrtH rd rs1 s
  | .sqrtQ rd rs1 => Sys2Proof.Machine.execSqrtQ rd rs1 s
  | .cvtSS rd rs1 m => Sys2Proof.Machine.execCvtSS rd rs1 m s
  | .cvtSH rd rs1 m => Sys2Proof.Machine.execCvtSH rd rs1 m s
  | .cvtSQ rd rs1 m => Sys2Proof.Machine.execCvtSQ rd rs1 m s
  | .cvtHS rd rs1 m => Sys2Proof.Machine.execCvtHS rd rs1 m s
  | .cvtHH rd rs1 m => Sys2Proof.Machine.execCvtHH rd rs1 m s
  | .cvtHQ rd rs1 m => Sys2Proof.Machine.execCvtHQ rd rs1 m s
  | .cvtQS rd rs1 m => Sys2Proof.Machine.execCvtQS rd rs1 m s
  | .cvtQH rd rs1 m => Sys2Proof.Machine.execCvtQH rd rs1 m s
  | .cvtQQ rd rs1 m => Sys2Proof.Machine.execCvtQQ rd rs1 m s
  | .phaccS rd rs1 rs2 => Sys2Proof.Machine.execPhaccS rd rs1 rs2 s
  | .phaccH rd rs1 rs2 => Sys2Proof.Machine.execPhaccH rd rs1 rs2 s
  | .phaccQ rd rs1 rs2 => Sys2Proof.Machine.execPhaccQ rd rs1 rs2 s
  | .tliS rd rs1 t => Sys2Proof.Machine.execTliS rd rs1 t s
  | .tliH rd rs1 t => Sys2Proof.Machine.execTliH rd rs1 t s
  | .sinS rd rs1 => Sys2Proof.Machine.execSinS rd rs1 s
  | .sinH rd rs1 => Sys2Proof.Machine.execSinH rd rs1 s
  | .cosS rd rs1 => Sys2Proof.Machine.execCosS rd rs1 s
  | .cosH rd rs1 => Sys2Proof.Machine.execCosH rd rs1 s
  | .exp2S rd rs1 m => Sys2Proof.Machine.execExp2S rd rs1 m s
  | .exp2H rd rs1 m => Sys2Proof.Machine.execExp2H rd rs1 m s
  | .exp10S rd rs1 m => Sys2Proof.Machine.execExp10S rd rs1 m s
  | .exp10H rd rs1 m => Sys2Proof.Machine.execExp10H rd rs1 m s
  | .sq135S rd rs1 => Sys2Proof.Machine.execSq135S rd rs1 s
  | .sq135H rd rs1 => Sys2Proof.Machine.execSq135H rd rs1 s
  | .sq35S rd rs1 => Sys2Proof.Machine.execSq35S rd rs1 s
  | .sq35H rd rs1 => Sys2Proof.Machine.execSq35H rd rs1 s
  | .ntof rd rs1 => Sys2Proof.Machine.execNtof rd rs1 s
  | .fton rd rs1 => Sys2Proof.Machine.execFton rd rs1 s
  | .romrdSin rd rs1 => Sys2Proof.Machine.execRomrdSin rd rs1 s
  | .romrdExp2 rd rs1 => Sys2Proof.Machine.execRomrdExp2 rd rs1 s
  | .romrdNote rd rs1 => Sys2Proof.Machine.execRomrdNote rd rs1 s
  | .db2g rd rs1 m => Sys2Proof.Machine.execDb2g rd rs1 m s
  | .g2db rd rs1 m => Sys2Proof.Machine.execG2db rd rs1 m s
  | .ev2s rd rs1 m => Sys2Proof.Machine.execEv2s rd rs1 m s
  | .s2ev rd rs1 m => Sys2Proof.Machine.execS2ev rd rs1 m s
  | .vol2s rd rs1 m => Sys2Proof.Machine.execVol2s rd rs1 m s
  | .s2vol rd rs1 m => Sys2Proof.Machine.execS2vol rd rs1 m s
  | .p2b rd rs1 m => Sys2Proof.Machine.execP2b rd rs1 m s
  | .p2f rd rs1 m => Sys2Proof.Machine.execP2f rd rs1 m s
  | .p2q rd rs1 m => Sys2Proof.Machine.execP2q rd rs1 m s
  | .p2st rd rs1 m => Sys2Proof.Machine.execP2st rd rs1 m s
  | .rand rd => Sys2Proof.Machine.execRand rd s
  | .rseed rs1 => Sys2Proof.Machine.execRseed rs1 s
  | .rget rd => Sys2Proof.Machine.execRget rd s
  | .etrig vi => Sys2Proof.Machine.execEtrig vi s
  | .eoff vi => Sys2Proof.Machine.execEoff vi s
  | .eval rd vi => Sys2Proof.Machine.execEval rd vi s
  | .eadv vi => Sys2Proof.Machine.execEadv vi s
  | .von rs1 vi => Sys2Proof.Machine.execVon rs1 vi s
  | .voff vi => Sys2Proof.Machine.execVoff vi s
  | .vslide rs1 vi => Sys2Proof.Machine.execVslide rs1 vi s
  | .vgetn rd vi => Sys2Proof.Machine.execVgetn rd vi s
  | .vphadv rs1 vi => Sys2Proof.Machine.execVphadv rs1 vi s
  | .noteon rs1 rs2 rs3 => Sys2Proof.Machine.execNoteon rs1 rs2 rs3 s
  | .noteoff rs1 rs2 => Sys2Proof.Machine.execNoteoff rs1 rs2 s
  | .anoff => Sys2Proof.Machine.execAnoff s
  | .run rd rs1 rs2 => Sys2Proof.Machine.execRun rd rs1 rs2 s
  | .lds rd rs1 imm => Sys2Proof.Machine.execLds rd rs1 imm s
  | .sts rd rs1 imm => Sys2Proof.Machine.execSts rd rs1 imm s
  | .ldb rd rs1 imm => Sys2Proof.Machine.execLdb rd rs1 imm s
  | .stb rd rs1 imm => Sys2Proof.Machine.execStb rd rs1 imm s

end Sys2Proof.Machine
end

