-- ==== Sys2Proof/Machine/HostPort.lean ====
section
/-! DEFINITION. The host's port: its pending interactions, the host bus and the construction of a block (20_memory.md R69, R70;
00_scope.md R6). -/

namespace Sys2Proof.Machine

open Sys2Proof

/-- The word a host-bus read names, if it is one LDS or LDB could read (20_memory.md R69). -/
def State.busLookup (s : State) (sp : Space) (addr : Word) : Option Word :=
  match sp with
  | .state => s.readState (uint addr)
  | .buf => (bufLoc s.cfg (uint addr)).map s.bufRead

/-- A host-bus read (20_memory.md R69): a refused one returns an unspecified word, a free value (log 4). -/
def State.busRead (s : State) (sp : Space) (addr : Word) : State :=
  match s.busLookup sp addr with
  | some w => { s with busReply := some w }
  | none => { s with busReply := some (Config.busDraw s.busDraws), busDraws := s.busDraws + 1 }

/-- A host-bus write (20_memory.md R69): as STS or STB, but a refused one changes nothing and does not
fault. -/
def State.busWrite (s : State) (sp : Space) (addr w : Word) : State :=
  match sp with
  | .state =>
    match s.writeState (uint addr) w with
    | .ok t => t
    | .error _ => s
  | .buf =>
    match bufLoc s.cfg (uint addr) with
    | some a => s.bufWrite a w
    | none => s

/-- The host's next interaction and the state without it (20_memory.md R70, R71): the oldest one is first. -/
def State.takeRequest (s : State) : Option (HostRequest × State) :=
  match s.host with
  | [] => none
  | r :: rest => some (r, { s with host := rest })

/-- The host delivers a command word on the command port, to be executed next (20_memory.md R70,
log 5). -/
def State.deliver (s : State) (w : Word) : State := { s with host := .command w :: s.host }

/-- Build a block with a configuration: one that breaks 00_scope.md R6 is refused (log 12). -/
def boot (c : Config) : Result := if c.legal then .next (State.resetWith c) else .refused .illegalConfiguration

end Sys2Proof.Machine
end

