-- ==== Sys2Proof/Machine/Command.lean ====
section
/-! DEFINITION. What the block does with each of the host's interactions (70_reset_and_hazards.md R346). -/

namespace Sys2Proof.Machine

open Sys2Proof

/-- A delivered command word: in READY it is decoded and executed, or raises ILLEGAL (30_encoding.md R87); in
FAULTED it is discarded without being decoded (60_exceptions.md R301). -/
def runCommand (w : Word) (s : State) : Result :=
  match s.mode with
  | .faulted => .next s
  | .ready =>
    match decode w with
    | .ok i => exec i s
    | .error _ => .next (takeFault w .illegal s)

/-- Perform one interaction of the host (70_reset_and_hazards.md R346). -/
def serve (r : HostRequest) (s : State) : Result :=
  match r with
  | .command w => runCommand w s
  | .busRead sp addr => .next (s.busRead sp addr)
  | .busWrite sp addr w => .next (s.busWrite sp addr w)
  | .reset => .next (takeReset s)

end Sys2Proof.Machine
end

