-- ==== Sys2Proof/Machine/Step.lean ====
section
/-! DEFINITION. One step of the machine: the host's oldest pending interaction is performed whole
(10_state.md R20; 20_memory.md R71). -/

namespace Sys2Proof.Machine

open Sys2Proof

/-- One step. With no interaction pending the block is idle and keeps all its state (60_exceptions.md R316,
70_reset_and_hazards.md R331). Log 5. -/
def step (s : State) : Host.Outcome State Fault Refusal :=
  match s.takeRequest with
  | none => .next s
  | some (r, t) => serve r t

/-- The state with one command word delivered so that the very next step takes it (log 5). Bits of the word
from `nbits` up are 0. -/
def State.withFetchWord (s : State) (nbits w : Nat) : State := s.deliver (BitVec.ofNat 32 (w % 2 ^ nbits))

end Sys2Proof.Machine
end

