-- ==== Sys2Proof/Safety.lean ====
section
/-! DEFINITION. What counts as a safe run, the invariant of the block, and the words that claims use: what a
command wrote, how it faulted, which state words are reserved. Written from the rules' own words, apart from
the model's operations. -/

namespace Sys2Proof.Machine

open Sys2Proof

/-! Safe runs and the invariant. -/

/-- A run is successful while the block has not faulted (70_reset_and_hazards.md R345). -/
abbrev State.safe (s : State) : Prop := s.mode = .ready

/-- What holds of the block in every state that a run reaches: the configuration is legal (00_scope.md R6);
BUF is in canonical form and inside the RAM (10_state.md R34); NOTE_COUNT is at most 4 (R29); FCAUSE and
FAULTCMD are 0 in READY and FCAUSE names a cause in FAULTED (R24, R26; 60_exceptions.md R302); ECODE is 0, 1 or
2, and not 0 while ERR is set (60_exceptions.md R306). -/
structure State.Inv (s : State) : Prop where
  legal : s.cfg.legal = true
  bufWf : Buf.wf s.buf
  bufIn : ∀ p ∈ s.buf, p.1 < s.cfg.bufWords
  count : uint s.noteCount ≤ 4
  ready : s.mode = .ready → s.fcause = 0 ∧ s.faultcmd = 0
  faulted : s.mode = .faulted → 1 ≤ s.fcause.toNat ∧ s.fcause.toNat ≤ 9
  ecode : s.ecode.toNat ≤ 2
  err : s.err = true → s.ecode ≠ 0

/-! Command words (30_encoding.md R81), the fields written out. -/

/-- A word of format R or T; in format T the field RD names RS3. -/
abbrev wordR (op : BitVec 6) (w : BitVec 2) (rd rs1 rs2 : Reg) (m : BitVec 2) : Word :=
  op ++ w ++ rd ++ rs1 ++ rs2 ++ m ++ 0#10

/-- A word of format I. -/
abbrev wordI (op : BitVec 6) (w : BitVec 2) (rd rs1 : Reg) (imm : BitVec 16) : Word :=
  op ++ w ++ rd ++ rs1 ++ imm

/-- A word of format V. -/
abbrev wordV (op : BitVec 6) (rd rs1 : Reg) (vi : VoiceIdx) : Word :=
  op ++ 0#2 ++ rd ++ rs1 ++ 0#13 ++ vi

/-- The W field (30_encoding.md R83). -/
def widthBits : Width → BitVec 2
  | .sample => 0b00
  | .half => 0b01
  | .quarter => 0b10

/-- The M field (30_encoding.md R84). -/
def modeBits : Ovf → BitVec 2
  | .wrap => 0b00
  | .sat => 0b01

/-- Each item of a list takes the state one step further, in the list's order. -/
def InTurn {α σ : Type} (r : α → σ → σ → Prop) : List α → σ → σ → Prop
  | [], s, t => t = s
  | x :: rest, s, t => ∃ u, r x s u ∧ InTurn r rest u t

/-- Run commands one after the other (10_state.md R20). -/
def execAll (l : List Instr) (s t : State) : Prop := InTurn (fun i s t => exec i s = .next t) l s t

/-! Results. -/

/-- `v` is what `apply(M, z)` returns (00_scope.md R10, R11): in WRAP the word value congruent to z modulo
2^32, in SAT z clamped to the words. -/
def Reduced (m : Ovf) (z v : Int) : Prop :=
  -2147483648 ≤ v ∧ v ≤ 2147483647 ∧
    match m with
    | .wrap => (v - z) % 4294967296 = 0
    | .sat => (v = z ∨ (z < -2147483648 ∧ v = -2147483648) ∨ (2147483647 < z ∧ v = 2147483647))

/-- Only register rd changed, and it holds the word w. -/
def Wrote (s : State) (rd : Reg) (w : Word) (t : State) : Prop :=
  t = { s with regs := t.regs } ∧ t.reg rd = w ∧ ∀ r, r ≠ rd → t.reg r = s.reg r

/-- Only register rd changed, and it holds the value z. -/
def WroteInt (s : State) (rd : Reg) (z : Int) (t : State) : Prop :=
  t = { s with regs := t.regs } ∧ t.x rd = z ∧ ∀ r, r ≠ rd → t.reg r = s.reg r

/-- Only register rd and STATUS.OV changed: rd holds `apply(M, z)`, and OV is set exactly where it was set or
z was not kept (00_scope.md R11; 40_alu.md R110). -/
def Applied (s : State) (rd : Reg) (m : Ovf) (z : Int) (t : State) : Prop :=
  t = { s with regs := t.regs, ov := t.ov } ∧ Reduced m z (t.x rd) ∧
    (t.ov = true ↔ s.ov = true ∨ t.x rd ≠ z) ∧ ∀ r, r ≠ rd → t.reg r = s.reg r

/-- `r` is isqrt(a) (00_scope.md R10). -/
def IsRoot (r : Nat) (a : Int) : Prop := (r : Int) * r ≤ a ∧ a < ((r : Int) + 1) * (r + 1)

/-- Fault entry of a command word with a cause code, and no other effect (60_exceptions.md R300, R302,
R305). -/
def FaultedBy (word : Word) (code : BitVec 4) (s t : State) : Prop :=
  t = { s with mode := .faulted, fcause := code, faultcmd := word }

/-! A RUN, step by step (46_engine.md R254, R255, R259, R260, R262). -/

/-- One voice's share of one sample in BUF[a] (46_engine.md R262). A voice that is off changes nothing. One that is on
takes its portamento step (as VGETN), has its envelope's value read (as EVAL) and its view passed to VOICE_RENDER; the
sample is added into the word, saturating, the two phases are stored, and ENV_ADVANCE runs last (as EADV, which does
nothing in mode NONE). -/
def VoiceRendered (a : Nat) (v : Fin 8) (s t : State) : Prop :=
  ((s.voice v).isOn = false → t = s) ∧
  ((s.voice v).isOn = true → ∃ (g e y : State) (out : RenderOut),
    exec (.vgetn 0 (BitVec.ofFin v)) s = .next g ∧ exec (.eval 0 (BitVec.ofFin v)) s = .next e ∧
    out = voiceRender s.cfg
      { voice := BitVec.ofNat 32 v.val, currentNote := (g.voice v).currentNote, detune := (s.voice v).detune,
        pan := (s.voice v).pan, vibPhase := (s.voice v).vibPhase, oscPhase := (s.voice v).oscPhase,
        envValue := e.reg 0, vibRate := s.knobs.vibRate, vibAmount := s.knobs.vibAmount } ∧
    y = { s with voices := y.voices, ov := y.ov, buf := y.buf } ∧
    y.voice v = { g.voice v with oscPhase := out.oscPhase, vibPhase := out.vibPhase } ∧
    (∀ k, k ≠ v → y.voice k = s.voice k) ∧
    Reduced .sat (sint (s.bufRead a) + sint out.sample) (sint (y.bufRead a)) ∧
    (∀ b, b ≠ a → y.bufRead b = s.bufRead b) ∧
    (y.ov = true ↔ e.ov = true ∨ sint (y.bufRead a) ≠ sint (s.bufRead a) + sint out.sample) ∧
    exec (.eadv (BitVec.ofFin v)) y = .next t)

/-- `RENDER(start, n)` (46_engine.md R262): sample by sample, and in each sample the voices in ascending order. -/
def BlockRendered (start n : Nat) (s t : State) : Prop :=
  InTurn (fun a => InTurn (VoiceRendered a) (List.finRange 8)) (List.range' start n) s t

/-- `FIRE(k); CLEAR(k)` of a slot that holds an event (46_engine.md R255, R259): a note-on allocates, a note-off releases,
and the slot is freed. -/
def SlotFired (k : Fin 8) (s t : State) : Prop :=
  ∃ u : State, ((s.event k).kind = .noteOn → u = s.allocate (s.event k).note (s.event k).velocity) ∧
    ((s.event k).kind = .noteOff → u = s.release (s.event k).note) ∧
    t = { u with events := t.events } ∧ t.event k = { kind := .free, delta := 0, note := 0, velocity := 0 } ∧
    ∀ j, j ≠ k → t.event j = s.event j

/-- Step 1 of a pass at slot k (46_engine.md R254), on the samples to the next event so far and the state: an event that
is due fires, and any other bounds the samples by its DELTA. -/
def SlotScanned (k : Fin 8) (p q : Nat × State) : Prop :=
  ((p.2.event k).kind = .free → q = p) ∧
  ((p.2.event k).kind ≠ .free → uint (p.2.event k).delta = 0 → q.1 = p.1 ∧ SlotFired k p.2 q.2) ∧
  ((p.2.event k).kind ≠ .free → uint (p.2.event k).delta ≠ 0 → q = (min p.1 (uint (p.2.event k).delta), p.2))

/-- Step 5 of a pass (46_engine.md R254, R259): every pending event counts down by n, and never below 0. -/
def EventsElapsed (n : Nat) (s t : State) : Prop :=
  t = { s with events := t.events } ∧
  ∀ k, ((s.event k).kind = .free → t.event k = s.event k) ∧
    ((s.event k).kind ≠ .free → ∃ d : Word, uint d + n = uint (s.event k).delta ∧
      t.event k = { s.event k with delta := d })

/-- The loop of RUN (46_engine.md R254): `RunLoop start left pos s pos' t` says that with `left` samples to render from BUF
word `start` on, the song position goes from `pos` to `pos'` and the state from `s` to `t`. A pass scans the slots in ascending
order, renders at least one sample up to the next event, counts the events down and advances the position (R260). -/
inductive RunLoop : Nat → Nat → Nat → State → Nat → State → Prop
  | done (start pos : Nat) (s : State) : RunLoop start 0 pos s pos s
  | pass {start left pos n pos' : Nat} {s fired rendered elapsed t : State}
      (scan : InTurn SlotScanned (List.finRange 8) (left, s) (n, fired)) (some : 1 ≤ n) (within : n ≤ left)
      (render : BlockRendered start n fired rendered) (elapse : EventsElapsed n rendered elapsed)
      (rest : RunLoop (start + n) (left - n) ((pos + n * s.cfg.songUnits / 48000) % 2 ^ 32) elapsed pos' t) :
      RunLoop start left pos s pos' t

/-! The state space (20_memory.md R64, R65). -/

/-- The addresses at which LDS raises BAD_ADDR (47_access.md R281). -/
def Unreadable (a : Int) : Prop :=
  a < 0 ∨ 0x100 ≤ a ∨ (0x005 ≤ a ∧ a ≤ 0x007) ∨ a = 0x00F ∨ (0x015 ≤ a ∧ a ≤ 0x01F) ∨
    (0x040 ≤ a ∧ a ≤ 0x0BF ∧ 12 ≤ (a - 0x040) % 16) ∨ (0x0C0 ≤ a ∧ a ≤ 0x0FF ∧ (a - 0x0C0) % 8 = 7)

/-- The addresses at which STS raises BAD_ADDR: those, and the read-only words (20_memory.md R64). -/
def Unwritable (a : Int) : Prop := Unreadable a ∨ (0x001 ≤ a ∧ a ≤ 0x003)

/-- w is no legal value of the enumerated word at a (20_memory.md R65). -/
def IllegalValue (a : Int) (w : Word) : Prop :=
  (0x020 ≤ a ∧ a ≤ 0x03F ∧ (a - 0x020) % 4 = 0 ∧ 3 ≤ uint w) ∨
  (0x040 ≤ a ∧ a ≤ 0x0BF ∧ ((a - 0x040) % 16 = 0 ∨ (a - 0x040) % 16 = 6) ∧ 2 ≤ uint w) ∨
  (0x0C0 ≤ a ∧ a ≤ 0x0FF ∧ (a - 0x0C0) % 8 = 0 ∧ 5 ≤ uint w) ∨
  (a = 0x014 ∧ 5 ≤ uint w)

/-- What a write of w to the writable state word at a does: at STATUS it clears OV and ERR where w has a 1
(10_state.md R24); elsewhere the word at a reads as w and every other state word as before. Registers, BUF,
the configuration and the host's side are unchanged. -/
def StoredState (a : Int) (w : Word) (s t : State) : Prop :=
  if a = 0 then t = { s with ov := s.ov && !w.getLsbD 0, err := s.err && !w.getLsbD 1 }
  else t.readState a = some w ∧ (∀ b, b ≠ a → t.readState b = s.readState b) ∧
    t.regs = s.regs ∧ (∀ b, t.bufRead b = s.bufRead b) ∧ t.cfg = s.cfg ∧ t.mode = s.mode ∧ t.host = s.host ∧
    t.busReply = s.busReply

/-- What a write of w to BUF[a] does. -/
def StoredBuf (a : Nat) (w : Word) (s t : State) : Prop :=
  t = { s with buf := t.buf } ∧ t.bufRead a = w ∧ ∀ b, b ≠ a → t.bufRead b = s.bufRead b

end Sys2Proof.Machine

namespace Sys2Proof

/-! What the commands may change. -/

/-- The register that a command writes (30_encoding.md R82; the RD of STS and STB is a source). -/
def Instr.dest : Instr → Option Reg
  | .nop => none
  | .lil rd _ | .lih rd _ => some rd
  | .add rd _ _ _ | .sub rd _ _ _ | .addi rd _ _ => some rd
  | .mulS rd _ _ _ | .mulH rd _ _ _ | .mulQ rd _ _ _ => some rd
  | .divS rd _ _ _ | .divH rd _ _ _ | .divQ rd _ _ _ => some rd
  | .imul rd _ _ _ | .idiv rd _ _ _ | .ash rd _ _ _ => some rd
  | .shli rd _ _ | .srai rd _ _ | .srli rd _ _ => some rd
  | .floorS rd _ | .floorH rd _ | .floorQ rd _ | .fractS rd _ | .fractH rd _ | .fractQ rd _ => some rd
  | .sqrtS rd _ | .sqrtH rd _ | .sqrtQ rd _ => some rd
  | .cvtSS rd _ _ | .cvtSH rd _ _ | .cvtSQ rd _ _ | .cvtHS rd _ _ | .cvtHH rd _ _ => some rd
  | .cvtHQ rd _ _ | .cvtQS rd _ _ | .cvtQH rd _ _ | .cvtQQ rd _ _ => some rd
  | .phaccS rd _ _ | .phaccH rd _ _ | .phaccQ rd _ _ => some rd
  | .tliS rd _ _ | .tliH rd _ _ | .sinS rd _ | .sinH rd _ | .cosS rd _ | .cosH rd _ => some rd
  | .exp2S rd _ _ | .exp2H rd _ _ | .exp10S rd _ _ | .exp10H rd _ _ => some rd
  | .sq135S rd _ | .sq135H rd _ | .sq35S rd _ | .sq35H rd _ | .ntof rd _ | .fton rd _ => some rd
  | .romrdSin rd _ | .romrdExp2 rd _ | .romrdNote rd _ => some rd
  | .db2g rd _ _ | .g2db rd _ _ | .ev2s rd _ _ | .s2ev rd _ _ | .vol2s rd _ _ => some rd
  | .s2vol rd _ _ | .p2b rd _ _ | .p2f rd _ _ | .p2q rd _ _ | .p2st rd _ _ => some rd
  | .rand rd | .rget rd | .eval rd _ | .vgetn rd _ | .run rd _ _ => some rd
  | .rseed _ | .etrig _ | .eoff _ | .eadv _ => none
  | .von _ _ | .voff _ | .vslide _ _ | .vphadv _ _ => none
  | .noteon _ _ _ | .noteoff _ _ | .anoff => none
  | .lds rd _ _ | .ldb rd _ _ => some rd
  | .sts _ _ _ | .stb _ _ _ => none

/-- The causes that a command can raise after decoding (60_exceptions.md R302, column "raised by"; the empty
lists are the commands of R303). -/
def Instr.causes : Instr → List (BitVec 4)
  | .sqrtS _ _ | .sqrtH _ _ | .sqrtQ _ _ | .ev2s _ _ _ | .s2vol _ _ _ => [2]
  | .divS _ _ _ _ | .divH _ _ _ _ | .divQ _ _ _ _ | .idiv _ _ _ _ => [3]
  | .ntof _ _ => [4]
  | .fton _ _ => [5]
  | .lds _ _ _ | .ldb _ _ _ | .stb _ _ _ => [6]
  | .sts _ _ _ => [6, 7]
  | .romrdSin _ _ | .romrdExp2 _ _ | .romrdNote _ _ => [8]
  | .g2db _ _ _ => [9]
  | .nop | .lil _ _ | .lih _ _ | .add _ _ _ _ | .sub _ _ _ _ | .addi _ _ _ => []
  | .mulS _ _ _ _ | .mulH _ _ _ _ | .mulQ _ _ _ _ | .imul _ _ _ _ | .ash _ _ _ _ => []
  | .shli _ _ _ | .srai _ _ _ | .srli _ _ _ => []
  | .floorS _ _ | .floorH _ _ | .floorQ _ _ | .fractS _ _ | .fractH _ _ | .fractQ _ _ => []
  | .cvtSS _ _ _ | .cvtSH _ _ _ | .cvtSQ _ _ _ | .cvtHS _ _ _ | .cvtHH _ _ _ => []
  | .cvtHQ _ _ _ | .cvtQS _ _ _ | .cvtQH _ _ _ | .cvtQQ _ _ _ => []
  | .phaccS _ _ _ | .phaccH _ _ _ | .phaccQ _ _ _ => []
  | .tliS _ _ _ | .tliH _ _ _ | .sinS _ _ | .sinH _ _ | .cosS _ _ | .cosH _ _ => []
  | .exp2S _ _ _ | .exp2H _ _ _ | .exp10S _ _ _ | .exp10H _ _ _ => []
  | .sq135S _ _ | .sq135H _ _ | .sq35S _ _ | .sq35H _ _ => []
  | .db2g _ _ _ | .s2ev _ _ _ | .vol2s _ _ _ | .p2b _ _ _ | .p2f _ _ _ | .p2q _ _ _ | .p2st _ _ _ => []
  | .rand _ | .rseed _ | .rget _ | .etrig _ | .eoff _ | .eval _ _ | .eadv _ => []
  | .von _ _ | .voff _ | .vslide _ _ | .vgetn _ _ | .vphadv _ _ => []
  | .noteon _ _ _ | .noteoff _ _ | .anoff | .run _ _ _ => []

/-- The commands whose rules' "Flags" line names STATUS.OV as one that the command may set
(10_state.md R25). -/
def Instr.mayOverflow : Instr → Bool
  | .add _ _ _ _ | .sub _ _ _ _ | .addi _ _ _ => true
  | .mulS _ _ _ _ | .mulH _ _ _ _ | .mulQ _ _ _ _ => true
  | .divS _ _ _ _ | .divH _ _ _ _ | .divQ _ _ _ _ => true
  | .imul _ _ _ _ | .idiv _ _ _ _ | .ash _ _ _ _ => true
  | .cvtSS _ _ _ | .cvtSH _ _ _ | .cvtSQ _ _ _ | .cvtHS _ _ _ | .cvtHH _ _ _ => true
  | .cvtHQ _ _ _ | .cvtQS _ _ _ | .cvtQH _ _ _ | .cvtQQ _ _ _ => true
  | .exp2S _ _ _ | .exp2H _ _ _ | .exp10S _ _ _ | .exp10H _ _ _ => true
  | .db2g _ _ _ | .g2db _ _ _ | .ev2s _ _ _ | .s2ev _ _ _ | .vol2s _ _ _ => true
  | .p2f _ _ _ | .p2q _ _ _ | .p2st _ _ _ => true
  | .eoff _ | .eval _ _ | .eadv _ | .run _ _ _ => true
  | .nop | .lil _ _ | .lih _ _ | .shli _ _ _ | .srai _ _ _ | .srli _ _ _ => false
  | .floorS _ _ | .floorH _ _ | .floorQ _ _ | .fractS _ _ | .fractH _ _ | .fractQ _ _ => false
  | .sqrtS _ _ | .sqrtH _ _ | .sqrtQ _ _ | .phaccS _ _ _ | .phaccH _ _ _ | .phaccQ _ _ _ => false
  | .tliS _ _ _ | .tliH _ _ _ | .sinS _ _ | .sinH _ _ | .cosS _ _ | .cosH _ _ => false
  | .sq135S _ _ | .sq135H _ _ | .sq35S _ _ | .sq35H _ _ | .ntof _ _ | .fton _ _ => false
  | .romrdSin _ _ | .romrdExp2 _ _ | .romrdNote _ _ | .s2vol _ _ _ | .p2b _ _ _ => false
  | .rand _ | .rseed _ | .rget _ | .etrig _ => false
  | .von _ _ | .voff _ | .vslide _ _ | .vgetn _ _ | .vphadv _ _ => false
  | .noteon _ _ _ | .noteoff _ _ | .anoff => false
  | .lds _ _ _ | .sts _ _ _ | .ldb _ _ _ | .stb _ _ _ => false

end Sys2Proof
end

