-- ==== Sys2Proof/Certificates/Slice0/Obligations.lean ====
section
/-! DEFINITION. What the provers are asked to prove: the numbered rules of the spec as statements about `exec`,
`decode`, `serve` and `step`. -/

open Sys2Proof Sys2Proof.Machine

/-! Encoding. -/

/-- The encoding examples of 30_encoding.md R93 decode to the commands they are written for. -/
def Obligations.SampleWordsDecode : Prop :=
  decode 0x10123400 = .ok (.add 1 2 3 .sat) ∧ decode 0x1D456000 = .ok (.mulH 4 5 6 .wrap) ∧
  decode 0x0810FFFB = .ok (.lil 1 (-5)) ∧ decode 0x0C100100 = .ok (.lih 1 0x0100) ∧
  decode 0x54210000 = .ok (.sinS 2 1) ∧ decode 0x48320001 = .ok (.cvtSH 3 2 .wrap) ∧
  decode 0xE0100020 = .ok (.lds 1 0 0x20) ∧ decode 0xE4200044 = .ok (.sts 2 0 0x44) ∧
  decode 0xC0312000 = .ok (.noteon 1 2 3) ∧ decode 0xCC456000 = .ok (.run 4 5 6) ∧
  decode 0xA8040002 = .ok (.von 4 2) ∧ decode 0xB4700002 = .ok (.vgetn 7 2) ∧
  decode 0x78120010 = .ok (.db2g 1 2 .sat)

/-- No bit of an encoding is dropped: every well-formed command is read back from its word, and from its
four bytes in front of any other bytes (30_encoding.md R81, R88; 20_memory.md R62). -/
def Obligations.EncodedCommandDecodesBack : Prop :=
  ∀ (i : Instr) (rest : List Byte), i.wf = true →
    decode (encode i) = .ok i ∧ decodeBytes (encodeBytes i ++ rest) = .ok (i, rest)

/-- A word is one command with its fields or ILLEGAL: a word that decodes is the word of its command, so two
words never decode to one command (30_encoding.md R86, R87, R90). -/
def Obligations.DecodedWordIsTheCommandsWord : Prop :=
  ∀ (w : Word) (i : Instr), decode w = .ok i → encode i = w ∧ i.wf = true

/-- The illegal words of 30_encoding.md R89, R86: opcodes in no row, W = 0b11, and failed checks; delivered in READY, a
word that does not decode raises ILLEGAL before anything else and changes nothing but the fault's words
(60_exceptions.md R300, R304). -/
def Obligations.IllegalWordsFault : Prop :=
  ∀ w : Word,
    (w.extractLsb' 26 6 ∈ ([0x00, 0x1F, 0x23, 0x28, 0x29, 0x2E, 0x34, 0x35, 0x36, 0x37, 0x3C, 0x3D, 0x3E, 0x3F] :
        List (BitVec 6)) → ∃ e, decode w = .error e) ∧
    (w.extractLsb' 24 2 = 0b11 → ∃ e, decode w = .error e) ∧
    (w.extractLsb' 26 6 = 0x1E → 10 ≤ (w.extractLsb' 0 4).toNat → ∃ e, decode w = .error e) ∧
    (w.extractLsb' 26 6 = 0x2A → 13 ≤ (w.extractLsb' 16 4).toNat → ∃ e, decode w = .error e) ∧
    (w.extractLsb' 26 6 = 0x04 → 2 ≤ (w.extractLsb' 10 2).toNat → ∃ e, decode w = .error e) ∧
    (w.extractLsb' 26 6 = 0x12 → w.extractLsb' 0 2 = 0b11 → ∃ e, decode w = .error e) ∧
    (w.extractLsb' 26 6 = 0x1D → w.extractLsb' 0 2 = 0b11 → ∃ e, decode w = .error e) ∧
    ∀ (s : State) (e : DecodeError), s.mode = .ready → decode w = .error e →
      ∃ t, runCommand w s = .next t ∧ FaultedBy w 1 s t

/-! The ALU. -/

/-- 40_alu.md R113 to R115. -/
def Obligations.NopAndImmediateMoves : Prop :=
  ∀ (s : State) (rd : Reg) (imm : BitVec 16),
    (decode 0x04000000 = .ok .nop ∧ exec .nop s = .next s) ∧
    (decode (wordI 0x02 0 rd 0 imm) = .ok (.lil rd imm) ∧
      ∃ t, exec (.lil rd imm) s = .next t ∧ WroteInt s rd imm.toInt t) ∧
    (decode (wordI 0x03 0 rd 0 imm) = .ok (.lih rd imm) ∧
      ∃ t, exec (.lih rd imm) s = .next t ∧ Wrote s rd (imm ++ (s.reg rd).extractLsb' 0 16) t)

/-- 40_alu.md R116 to R118. -/
def Obligations.AddAndSubtract : Prop :=
  ∀ (s : State) (rd rs1 rs2 : Reg) (m : Ovf) (imm : BitVec 16),
    (decode (wordI 0x06 0 rd rs1 imm) = .ok (.addi rd rs1 imm) ∧
      ∃ t, exec (.addi rd rs1 imm) s = .next t ∧ Applied s rd .wrap (s.x rs1 + imm.toInt) t) ∧
    (decode (wordR 0x04 0 rd rs1 rs2 (modeBits m)) = .ok (.add rd rs1 rs2 m) ∧
      ∃ t, exec (.add rd rs1 rs2 m) s = .next t ∧ Applied s rd m (s.x rs1 + s.x rs2) t) ∧
    (decode (wordR 0x05 0 rd rs1 rs2 (modeBits m)) = .ok (.sub rd rs1 rs2 m) ∧
      ∃ t, exec (.sub rd rs1 rs2 m) s = .next t ∧ Applied s rd m (s.x rs1 - s.x rs2) t)

/-- 40_alu.md R119, R121. -/
def Obligations.Multiply : Prop :=
  ∀ (s : State) (rd rs1 rs2 : Reg) (m : Ovf),
    (∀ p ∈ [(Width.sample, Instr.mulS rd rs1 rs2 m), (.half, .mulH rd rs1 rs2 m), (.quarter, .mulQ rd rs1 rs2 m)],
      decode (wordR 0x07 (widthBits p.1) rd rs1 rs2 (modeBits m)) = .ok p.2 ∧
      ∃ t, exec p.2 s = .next t ∧
        Applied s rd m ((s.x rs1 * s.x rs2).fdiv (2 ^ frac s.cfg p.1)) t) ∧
    (decode (wordR 0x09 0 rd rs1 rs2 (modeBits m)) = .ok (.imul rd rs1 rs2 m) ∧
      ∃ t, exec (.imul rd rs1 rs2 m) s = .next t ∧ Applied s rd m (s.x rs1 * s.x rs2) t)

/-- 40_alu.md R120, R122: a zero divisor faults with DIV_ZERO, else the quotient rounds toward zero. -/
def Obligations.Divide : Prop :=
  ∀ (s : State) (rd rs1 rs2 : Reg) (m : Ovf),
    (∀ p ∈ [(Width.sample, Instr.divS rd rs1 rs2 m), (.half, .divH rd rs1 rs2 m), (.quarter, .divQ rd rs1 rs2 m)],
      decode (wordR 0x08 (widthBits p.1) rd rs1 rs2 (modeBits m)) = .ok p.2 ∧
      (s.x rs2 = 0 → ∃ t, exec p.2 s = .next t ∧
        FaultedBy (wordR 0x08 (widthBits p.1) rd rs1 rs2 (modeBits m)) 3 s t) ∧
      (s.x rs2 ≠ 0 → ∃ t, exec p.2 s = .next t ∧
        Applied s rd m ((s.x rs1 * 2 ^ frac s.cfg p.1).tdiv (s.x rs2)) t)) ∧
    (decode (wordR 0x0A 0 rd rs1 rs2 (modeBits m)) = .ok (.idiv rd rs1 rs2 m) ∧
      (s.x rs2 = 0 → ∃ t, exec (.idiv rd rs1 rs2 m) s = .next t ∧
        FaultedBy (wordR 0x0A 0 rd rs1 rs2 (modeBits m)) 3 s t) ∧
      (s.x rs2 ≠ 0 → ∃ t, exec (.idiv rd rs1 rs2 m) s = .next t ∧
        Applied s rd m ((s.x rs1).tdiv (s.x rs2)) t))

/-- 40_alu.md R123: the shift is exact for every signed count. -/
def Obligations.ArithmeticShift : Prop :=
  ∀ (s : State) (rd rs1 rs2 : Reg) (m : Ovf),
    decode (wordR 0x0B 0 rd rs1 rs2 (modeBits m)) = .ok (.ash rd rs1 rs2 m) ∧
    ∃ t, exec (.ash rd rs1 rs2 m) s = .next t ∧
      (0 ≤ s.x rs2 → Applied s rd m (s.x rs1 * 2 ^ (s.x rs2).toNat) t) ∧
      (s.x rs2 < 0 → Applied s rd m ((s.x rs1).fdiv (2 ^ (-s.x rs2).toNat)) t)

/-- 40_alu.md R124 to R126. -/
def Obligations.ImmediateShifts : Prop :=
  ∀ (s : State) (rd rs1 : Reg) (sh : BitVec 5),
    (decode (wordI 0x0C 0 rd rs1 (0#11 ++ sh)) = .ok (.shli rd rs1 sh) ∧
      ∃ t, exec (.shli rd rs1 sh) s = .next t ∧
        Wrote s rd (BitVec.ofNat 32 (s.ux rs1 * 2 ^ sh.toNat)) t) ∧
    (decode (wordI 0x0D 0 rd rs1 (0#11 ++ sh)) = .ok (.srai rd rs1 sh) ∧
      ∃ t, exec (.srai rd rs1 sh) s = .next t ∧ WroteInt s rd ((s.x rs1).fdiv (2 ^ sh.toNat)) t) ∧
    (decode (wordI 0x0E 0 rd rs1 (0#11 ++ sh)) = .ok (.srli rd rs1 sh) ∧
      ∃ t, exec (.srli rd rs1 sh) s = .next t ∧
        Wrote s rd (BitVec.ofNat 32 (s.ux rs1 / 2 ^ sh.toNat)) t)

/-- 40_alu.md R127, R128. -/
def Obligations.FloorAndFraction : Prop :=
  ∀ (s : State) (rd rs1 : Reg), s.cfg.legal = true →
    (∀ p ∈ [(Width.sample, Instr.floorS rd rs1), (.half, .floorH rd rs1), (.quarter, .floorQ rd rs1)],
      decode (wordR 0x0F (widthBits p.1) rd rs1 0 0) = .ok p.2 ∧
      ∃ t, exec p.2 s = .next t ∧
        WroteInt s rd ((s.x rs1).fdiv (2 ^ frac s.cfg p.1) * 2 ^ frac s.cfg p.1) t) ∧
    (∀ p ∈ [(Width.sample, Instr.fractS rd rs1), (.half, .fractH rd rs1), (.quarter, .fractQ rd rs1)],
      decode (wordR 0x10 (widthBits p.1) rd rs1 0 0) = .ok p.2 ∧
      ∃ t, exec p.2 s = .next t ∧
        WroteInt s rd (s.x rs1 - (s.x rs1).fdiv (2 ^ frac s.cfg p.1) * 2 ^ frac s.cfg p.1) t ∧
        0 ≤ t.x rd ∧ t.x rd < 2 ^ frac s.cfg p.1)

/-- 40_alu.md R129: a negative operand faults with SQRT_NEG, else the integer root is rescaled. -/
def Obligations.SquareRoot : Prop :=
  ∀ (s : State) (rd rs1 : Reg), s.cfg.legal = true →
    ∀ p ∈ [(Width.sample, Instr.sqrtS rd rs1), (.half, .sqrtH rd rs1), (.quarter, .sqrtQ rd rs1)],
      decode (wordR 0x11 (widthBits p.1) rd rs1 0 0) = .ok p.2 ∧
      (s.x rs1 < 0 → ∃ t, exec p.2 s = .next t ∧ FaultedBy (wordR 0x11 (widthBits p.1) rd rs1 0 0) 2 s t) ∧
      (0 ≤ s.x rs1 → ∃ t, exec p.2 s = .next t ∧
        ∃ r : Nat, IsRoot r (s.x rs1) ∧ WroteInt s rd (r * 2 ^ (frac s.cfg p.1 / 2)) t)

/-- 40_alu.md R131: to more fractional bits the value is shifted left and applied, to fewer it rounds toward
minus infinity. -/
def Obligations.WidthConversion : Prop :=
  ∀ (s : State) (rd rs1 : Reg) (m : Ovf),
    ∀ p ∈ [(Width.sample, Width.sample, Instr.cvtSS rd rs1 m), (.sample, .half, .cvtSH rd rs1 m),
        (.sample, .quarter, .cvtSQ rd rs1 m), (.half, .sample, .cvtHS rd rs1 m), (.half, .half, .cvtHH rd rs1 m),
        (.half, .quarter, .cvtHQ rd rs1 m), (.quarter, .sample, .cvtQS rd rs1 m),
        (.quarter, .half, .cvtQH rd rs1 m), (.quarter, .quarter, .cvtQQ rd rs1 m)],
      decode (wordI 0x12 (widthBits p.1) rd rs1 (0#12 ++ modeBits m ++ widthBits p.2.1)) = .ok p.2.2 ∧
      ∃ t, exec p.2.2 s = .next t ∧
        (frac s.cfg p.1 ≤ frac s.cfg p.2.1 →
          Applied s rd m (s.x rs1 * 2 ^ (frac s.cfg p.2.1 - frac s.cfg p.1)) t) ∧
        (frac s.cfg p.2.1 < frac s.cfg p.1 →
          WroteInt s rd ((s.x rs1).fdiv (2 ^ (frac s.cfg p.1 - frac s.cfg p.2.1))) t)

/-! The tables. -/

/-- The interpolation primitive (41_tables.md R151): with F the width's fractional bits, the index is the high
9 bits of the fractional field and the fraction its low F - 9 bits; the result is rescaled from Sample to the
width, and with the exact product it lies between the two table words. Only the fractional field is read, so the
lookup is periodic with period 1.0. -/
def Obligations.InterpolationPrimitive : Prop :=
  ∀ (c : Config) (tab : InterpTable) (x : Int), c.legal = true →
    ∀ w ∈ [Width.sample, Width.half],
      (∃ (i : Nat) (lo hi : Word) (v : Int),
        (i : Int) = (x % 2 ^ frac c w) / 2 ^ (frac c w - 9) ∧ i ≤ 511 ∧
        (interpRom c tab)[i]? = some lo ∧ (interpRom c tab)[i + 1]? = some hi ∧
        interp c tab w x = v.fdiv (2 ^ (c.fS - frac c w)) ∧
        (c.interpProduct = .exactProduct →
          v = sint lo + ((sint hi - sint lo) * (x % 2 ^ (frac c w - 9))).fdiv (2 ^ (frac c w - 9)) ∧
          min (sint lo) (sint hi) ≤ v ∧ v ≤ max (sint lo) (sint hi)) ∧
        (c.interpProduct = .wrapProduct →
          ∃ q, Reduced .wrap ((sint hi - sint lo) * (x % 2 ^ (frac c w - 9))) q ∧
            Reduced .wrap (sint lo + q.fdiv (2 ^ (frac c w - 9))) v)) ∧
      ∀ k : Int, interp c tab w (x + k * 2 ^ frac c w) = interp c tab w x

/-- 41_tables.md R152 to R154: TLI, SIN, and COS a quarter cycle ahead. -/
def Obligations.TableLookupSineCosine : Prop :=
  ∀ (s : State) (rd rs1 : Reg) (tab : InterpTable), s.cfg.legal = true →
    (∀ p ∈ [(Width.sample, Instr.tliS rd rs1 tab), (.half, .tliH rd rs1 tab)],
      decode (wordI 0x14 (widthBits p.1) rd rs1 (match tab with | .sin => 0 | .exp2 => 1)) = .ok p.2 ∧
      ∃ t, exec p.2 s = .next t ∧ WroteInt s rd (interp s.cfg tab p.1 (s.x rs1)) t) ∧
    (∀ p ∈ [(Width.sample, Instr.sinS rd rs1), (.half, .sinH rd rs1)],
      decode (wordR 0x15 (widthBits p.1) rd rs1 0 0) = .ok p.2 ∧
      ∃ t, exec p.2 s = .next t ∧ WroteInt s rd (interp s.cfg .sin p.1 (s.x rs1)) t) ∧
    (∀ p ∈ [(Width.sample, Instr.cosS rd rs1), (.half, .cosH rd rs1)],
      decode (wordR 0x16 (widthBits p.1) rd rs1 0 0) = .ok p.2 ∧
      ∃ t, exec p.2 s = .next t ∧
        WroteInt s rd (interp s.cfg .sin p.1 (s.x rs1 + 2 ^ (frac s.cfg p.1 - 2))) t)

/-- 41_tables.md R155, R156: 2^y from the shifted unit and the residual; the product with log2(10) is exact. EXP2
of an integer n from 0 to 30 - F is 2^n exactly, and of one below -F it is 0. -/
def Obligations.Exponentials : Prop :=
  ∀ (s : State) (rd rs1 : Reg) (m : Ovf),
    (∀ p ∈ [(Width.sample, (0x17 : BitVec 6), Instr.exp2S rd rs1 m, s.x rs1),
        (.half, 0x17, .exp2H rd rs1 m, s.x rs1),
        (.sample, 0x18, .exp10S rd rs1 m, (s.x rs1 * sint s.cfg.kLog10S).fdiv (2 ^ s.cfg.fS)),
        (.half, 0x18, .exp10H rd rs1 m, (s.x rs1 * sint s.cfg.kLog10H).fdiv (2 ^ s.cfg.fH))],
      decode (wordR p.2.1 (widthBits p.1) rd rs1 0 (modeBits m)) = .ok p.2.2.1 ∧
      ∃ (t : State) (n r su : Int), exec p.2.2.1 s = .next t ∧
        p.2.2.2 = n * 2 ^ frac s.cfg p.1 + r ∧ 0 ≤ r ∧ r < 2 ^ frac s.cfg p.1 ∧
        (0 ≤ n → su = 2 ^ (frac s.cfg p.1 + n.toNat)) ∧
        (n < 0 → su = (2 ^ frac s.cfg p.1 : Int).fdiv (2 ^ (-n).toNat)) ∧
        Applied s rd m (su + (su * interp s.cfg .exp2 p.1 r).fdiv (2 ^ frac s.cfg p.1)) t) ∧
    ∀ n : Int, s.cfg.legal = true →
      ∀ p ∈ [(Width.sample, Instr.exp2S rd rs1 m), (.half, .exp2H rd rs1 m)],
        s.x rs1 = n * 2 ^ frac s.cfg p.1 →
          (0 ≤ n → n + frac s.cfg p.1 ≤ 30 → ∃ t, exec p.2 s = .next t ∧
            WroteInt s rd (2 ^ (n.toNat + frac s.cfg p.1)) t) ∧
          (n + frac s.cfg p.1 < 0 → ∃ t, exec p.2 s = .next t ∧ WroteInt s rd 0 t)

/-- 41_tables.md R157, R158. The sum is written wherever it fits a word; with ROM words for which SQ135.S's
sum does not fit, the rule states no value and the model's is free (log 9). -/
def Obligations.OddHarmonics : Prop :=
  ∀ (s : State) (rd rs1 : Reg), s.cfg.legal = true →
    ∀ w ∈ [Width.sample, Width.half], ∀ s3 s5 : Int,
      (∃ v, Reduced .wrap (3 * s.x rs1) v ∧ s3 = interp s.cfg .sin w v) →
      (∃ v, Reduced .wrap (5 * s.x rs1) v ∧ s5 = interp s.cfg .sin w v) →
      (∀ p ∈ [(Width.sample, Instr.sq135S rd rs1), (.half, .sq135H rd rs1)], p.1 = w →
        decode (wordR 0x19 (widthBits p.1) rd rs1 0 0) = .ok p.2 ∧
        ∃ t, exec p.2 s = .next t ∧ Wrote s rd (t.reg rd) t ∧
          (-2147483648 ≤ interp s.cfg .sin w (s.x rs1) + s3.tdiv 3 + s5.tdiv 5 →
            interp s.cfg .sin w (s.x rs1) + s3.tdiv 3 + s5.tdiv 5 ≤ 2147483647 →
            t.x rd = interp s.cfg .sin w (s.x rs1) + s3.tdiv 3 + s5.tdiv 5)) ∧
      (∀ p ∈ [(Width.sample, Instr.sq35S rd rs1), (.half, .sq35H rd rs1)], p.1 = w →
        decode (wordR 0x1A (widthBits p.1) rd rs1 0 0) = .ok p.2 ∧
        ∃ t, exec p.2 s = .next t ∧ WroteInt s rd (s3.tdiv 3 + s5.tdiv 5) t)

/-- 41_tables.md R159, R160: notes below 0.0 and above 127.0 fault with NOTE_RANGE, a frequency whose ratio word is
not positive with FREQ_RANGE; FTON is octave-accurate, from the integer log2 of the ratio word over 1.0. -/
def Obligations.NoteAndFrequency : Prop :=
  ∀ (s : State) (rd rs1 : Reg),
    decode (wordR 0x1B 0 rd rs1 0 0) = .ok (.ntof rd rs1) ∧
    decode (wordR 0x1C 0 rd rs1 0 0) = .ok (.fton rd rs1) ∧
    (∀ i fr : Int, s.x rs1 = i * 2 ^ s.cfg.fH + fr → 0 ≤ fr → fr < 2 ^ s.cfg.fH →
      (i < 0 ∨ 127 < i ∨ (i = 127 ∧ fr ≠ 0) →
        ∃ t, exec (.ntof rd rs1) s = .next t ∧ FaultedBy (wordR 0x1B 0 rd rs1 0 0) 4 s t) ∧
      (0 ≤ i → i ≤ 127 → fr = 0 → ∃ t lo, exec (.ntof rd rs1) s = .next t ∧
        s.cfg.noteRom[i.toNat]? = some lo ∧ Wrote s rd lo t) ∧
      (0 ≤ i → i < 127 → fr ≠ 0 → ∃ t lo hi, exec (.ntof rd rs1) s = .next t ∧
        s.cfg.noteRom[i.toNat]? = some lo ∧ s.cfg.noteRom[i.toNat + 1]? = some hi ∧
        WroteInt s rd (sint lo + ((sint hi - sint lo) * fr).fdiv (2 ^ s.cfg.fH)) t)) ∧
    ((s.x rs1).fdiv 440 ≤ 0 →
      ∃ t, exec (.fton rd rs1) s = .next t ∧ FaultedBy (wordR 0x1C 0 rd rs1 0 0) 5 s t) ∧
    (s.cfg.legal = true → 0 < (s.x rs1).fdiv 440 →
      ∃ (t : State) (k : Nat), exec (.fton rd rs1) s = .next t ∧
        2 ^ k ≤ (s.x rs1).fdiv 440 ∧ (s.x rs1).fdiv 440 < 2 ^ (k + 1) ∧
        WroteInt s rd ((69 + 12 * ((k : Int) - s.cfg.fH)) * 2 ^ s.cfg.fH) t)

/-- 41_tables.md R161: an index outside the table faults with ROM_INDEX. -/
def Obligations.RomRead : Prop :=
  ∀ (s : State) (rd rs1 : Reg),
    ∀ p ∈ [((0 : BitVec 2), Instr.romrdSin rd rs1, s.cfg.sinRom.toList),
        (1, .romrdExp2 rd rs1, s.cfg.exp2Rom.toList), (2, .romrdNote rd rs1, s.cfg.noteRom.toList)],
      decode (wordI 0x1D 0 rd rs1 (0#14 ++ p.1)) = .ok p.2.1 ∧
      (s.x rs1 < 0 ∨ p.2.2.length ≤ s.x rs1 → ∃ t, exec p.2.1 s = .next t ∧
        FaultedBy (wordI 0x1D 0 rd rs1 (0#14 ++ p.1)) 8 s t) ∧
      (0 ≤ s.x rs1 → s.x rs1 < p.2.2.length → ∃ t w, exec p.2.1 s = .next t ∧
        p.2.2[(s.x rs1).toNat]? = some w ∧ Wrote s rd w t)

/-! Conversions. -/

/-- 43_conversions.md R191, R192: DB2G is EXP2 of db/6; G2DB is 6 LOG2_FN(gain), and faults with LOG_DOMAIN at 0
and below. -/
def Obligations.DecibelConversions : Prop :=
  ∀ (s : State) (rd rs1 : Reg) (m : Ovf),
    (decode (wordI 0x1E 0 rd rs1 (0#10 ++ modeBits m ++ 0x0#4)) = .ok (.db2g rd rs1 m) ∧
      ∃ t, exec (.db2g rd rs1 m) s = .next t ∧
        Applied s rd m (exp2Core s.cfg .sample ((s.x rs1).tdiv 6 * 2 ^ (s.cfg.fS - s.cfg.fH))) t) ∧
    (decode (wordI 0x1E 0 rd rs1 (0#10 ++ modeBits m ++ 0x1#4)) = .ok (.g2db rd rs1 m) ∧
      (s.x rs1 ≤ 0 → ∃ t, exec (.g2db rd rs1 m) s = .next t ∧
        FaultedBy (wordI 0x1E 0 rd rs1 (0#10 ++ modeBits m ++ 0x1#4)) 9 s t) ∧
      (0 < s.x rs1 → ∃ t, exec (.g2db rd rs1 m) s = .next t ∧
        Applied s rd m (sint (log2Fn s.cfg (s.reg rs1)) * 6) t))

/-- 43_conversions.md R193, R196: EV2S applies M to the Sample conversion, then roots it; a negative value
faults with SQRT_NEG and discards the OV that the conversion would have set. S2VOL roots the sample and halves it
twice. -/
def Obligations.RootConversions : Prop :=
  ∀ (s : State) (rd rs1 : Reg) (m : Ovf), s.cfg.legal = true →
    (decode (wordI 0x1E 0 rd rs1 (0#10 ++ modeBits m ++ 0x2#4)) = .ok (.ev2s rd rs1 m) ∧
      ∀ z ts : Int,
        z = ((s.x rs1 - 2 ^ s.cfg.fH) * sint s.cfg.k0002H).fdiv (2 ^ s.cfg.fH) * 2 ^ (s.cfg.fS - s.cfg.fH) →
        Reduced m z ts →
        (ts < 0 → ∃ t, exec (.ev2s rd rs1 m) s = .next t ∧
          FaultedBy (wordI 0x1E 0 rd rs1 (0#10 ++ modeBits m ++ 0x2#4)) 2 s t) ∧
        (0 ≤ ts → ∃ (t : State) (r : Nat), exec (.ev2s rd rs1 m) s = .next t ∧ IsRoot r ts ∧
          WroteInt { s with ov := t.ov } rd (r * 2 ^ (s.cfg.fS / 2)) t ∧
          (t.ov = true ↔ s.ov = true ∨ ts ≠ z))) ∧
    (decode (wordI 0x1E 0 rd rs1 (0#10 ++ modeBits m ++ 0x5#4)) = .ok (.s2vol rd rs1 m) ∧
      (s.x rs1 < 0 → ∃ t, exec (.s2vol rd rs1 m) s = .next t ∧
        FaultedBy (wordI 0x1E 0 rd rs1 (0#10 ++ modeBits m ++ 0x5#4)) 2 s t) ∧
      (0 ≤ s.x rs1 → ∃ (t : State) (r : Nat), exec (.s2vol rd rs1 m) s = .next t ∧ IsRoot r (s.x rs1) ∧
        WroteInt s rd (((r : Int) * 2 ^ (s.cfg.fS / 2)).fdiv 4) t))

/-- 43_conversions.md R194, R195, R197 to R200. -/
def Obligations.CurveConversions : Prop :=
  ∀ (s : State) (rd rs1 : Reg) (m : Ovf) (x h v p2 p4 : Int), s.cfg.legal = true →
    x = s.x rs1 → h = x.fdiv (2 ^ (s.cfg.fS - s.cfg.fH)) → v = 4 * x →
    p2 = (x * x).fdiv (2 ^ s.cfg.fS) → p4 = (p2 * p2).fdiv (2 ^ s.cfg.fS) →
    (decode (wordI 0x1E 0 rd rs1 (0#10 ++ modeBits m ++ 0x3#4)) = .ok (.s2ev rd rs1 m) ∧
      ∃ t, exec (.s2ev rd rs1 m) s = .next t ∧
        Applied s rd m ((h * h).fdiv (2 ^ s.cfg.fH) * 5000 + 2 ^ s.cfg.fH) t) ∧
    (decode (wordI 0x1E 0 rd rs1 (0#10 ++ modeBits m ++ 0x4#4)) = .ok (.vol2s rd rs1 m) ∧
      ∃ t, exec (.vol2s rd rs1 m) s = .next t ∧ Applied s rd m ((v * v).fdiv (2 ^ s.cfg.fS)) t) ∧
    (decode (wordI 0x1E 0 rd rs1 (0#10 ++ modeBits m ++ 0x6#4)) = .ok (.p2b rd rs1 m) ∧
      ∃ t, exec (.p2b rd rs1 m) s = .next t ∧
        WroteInt s rd (if 2 ^ (s.cfg.fS - 1) ≤ x then 1 else 0) t) ∧
    (decode (wordI 0x1E 0 rd rs1 (0#10 ++ modeBits m ++ 0x7#4)) = .ok (.p2f rd rs1 m) ∧
      ∃ t, exec (.p2f rd rs1 m) s = .next t ∧
        Applied s rd m (p2.fdiv (2 ^ (s.cfg.fS - s.cfg.fH)) * 19980 + 20 * 2 ^ s.cfg.fH) t) ∧
    (decode (wordI 0x1E 0 rd rs1 (0#10 ++ modeBits m ++ 0x8#4)) = .ok (.p2q rd rs1 m) ∧
      ∃ t, exec (.p2q rd rs1 m) s = .next t ∧
        (x < 2 ^ (s.cfg.fS - 1) →
          Applied s rd m (sint s.cfg.qc0 + (x * sint s.cfg.qs1).fdiv (2 ^ s.cfg.fS)) t) ∧
        (2 ^ (s.cfg.fS - 1) ≤ x →
          Applied s rd m (sint s.cfg.qc0 + (2 ^ (s.cfg.fS - 1) * sint s.cfg.qs1).fdiv (2 ^ s.cfg.fS) +
            ((x - 2 ^ (s.cfg.fS - 1)) * sint s.cfg.qs2).fdiv (2 ^ s.cfg.fS)) t)) ∧
    (decode (wordI 0x1E 0 rd rs1 (0#10 ++ modeBits m ++ 0x9#4)) = .ok (.p2st rd rs1 m) ∧
      ∃ t, exec (.p2st rd rs1 m) s = .next t ∧
        Applied s rd m (p4.fdiv (2 ^ (s.cfg.fS - s.cfg.fQ)) * 480000) t)

/-! The generator. -/

/-- 42_rng.md R180 to R182: RAND multiplies the seed, wrapping, and returns RNG_EXTRACT of the new seed; RSEED
sets the seed and RGET reads it. -/
def Obligations.GeneratorCommands : Prop :=
  ∀ (s : State) (rd rs1 : Reg),
    (decode (wordR 0x20 0 rd 0 0 0) = .ok (.rand rd) ∧
      ∃ t, exec (.rand rd) s = .next t ∧ Reduced .wrap (sint s.seed * 0x015A4E35) (sint t.seed) ∧
        Wrote { s with seed := t.seed } rd (rngExtract s.cfg t.seed) t) ∧
    (decode (wordR 0x21 0 0 rs1 0 0) = .ok (.rseed rs1) ∧
      exec (.rseed rs1) s = .next { s with seed := s.reg rs1 }) ∧
    (decode (wordR 0x22 0 rd 0 0 0) = .ok (.rget rd) ∧
      ∃ t, exec (.rget rd) s = .next t ∧ Wrote s rd s.seed t)

/-- After k draws the seed is wrap32(s0 * 0x015A4E35^k), whatever registers took the draws, and the last draw
is RNG_EXTRACT of it (42_rng.md R184). -/
def Obligations.SeedAfterDraws : Prop :=
  ∀ (rds : List Reg) (s : State), ∃ t, execAll (rds.map .rand) s t ∧
    Reduced .wrap (sint s.seed * 0x015A4E35 ^ rds.length) (sint t.seed) ∧
    (∀ rd, rds.getLast? = some rd → t.reg rd = rngExtract s.cfg t.seed)

/-- The seed update is a bijection on words, an odd seed stays odd, and the number of trailing zero bits is
preserved (42_rng.md R185, its first sentence). -/
def Obligations.SeedUpdateIsBijective : Prop :=
  (∀ a b : Word, nextSeed a = nextSeed b → a = b) ∧ (∀ b : Word, ∃ a, nextSeed a = b) ∧
    ∀ (a : Word) (k : Nat), k ≤ 32 → (2 ^ k ∣ uint a ↔ 2 ^ k ∣ uint (nextSeed a))

/-- Draws happen only in RAND: no command but RAND, RSEED and STS changes the seed (42_rng.md R183;
10_state.md R27). -/
def Obligations.OnlyRandRseedStsWriteSeed : Prop :=
  ∀ (i : Instr) (s t : State), exec i s = .next t →
    (∀ rd, i ≠ .rand rd) → (∀ rs1, i ≠ .rseed rs1) → (∀ rd rs1 imm, i ≠ .sts rd rs1 imm) →
    t.seed = s.seed

/-! Envelopes. -/

/-- 44_envelope.md R211: the value of an envelope by its stage, before it saturates. -/
def Obligations.EnvelopeValueByStage : Prop :=
  ∀ (s : State) (rd : Reg) (vi : VoiceIdx) (e : Envelope) (one F : Int) (f : Nat),
    e = s.env (slotOf vi) → f = s.cfg.fS → one = 2 ^ f → F = 2 ^ f →
    decode (wordV 0x26 rd 0 vi) = .ok (.eval rd vi) ∧
    ∃ t, exec (.eval rd vi) s = .next t ∧
      (e.stage = .attack → Applied s rd .sat ((sint e.position * sint e.attackRate).fdiv F) t) ∧
      (e.stage = .decay → ∀ g g2 : Int, g = one - (sint e.position * sint e.decayRate).fdiv F →
        g2 = (g * g).fdiv F → Applied s rd .sat (g2 + (sint e.sustain * (one - g2)).fdiv F) t) ∧
      (e.stage = .sustain → Applied s rd .sat (sint e.sustain) t) ∧
      (e.stage = .release → ∀ g : Int, g = one - (sint e.position * sint e.releaseRate).fdiv F →
        Applied s rd .sat ((sint e.releaseValue * (g * g).fdiv F).fdiv F) t) ∧
      (e.stage = .finished → Applied s rd .sat 0 t)

/-- 44_envelope.md R213, R214: ETRIG restarts the attack; EOFF captures the value that EVAL would read and starts
the release. -/
def Obligations.EnvelopeTriggerAndRelease : Prop :=
  ∀ (s : State) (vi : VoiceIdx),
    (decode (wordV 0x24 0 0 vi) = .ok (.etrig vi) ∧
      ∃ t, exec (.etrig vi) s = .next t ∧ t = { s with envs := t.envs } ∧
        t.env (slotOf vi) = { s.env (slotOf vi) with stage := .attack, position := 0 } ∧
        ∀ e, e ≠ slotOf vi → t.env e = s.env e) ∧
    (decode (wordV 0x25 0 0 vi) = .ok (.eoff vi) ∧
      ∃ t u, exec (.eoff vi) s = .next t ∧ exec (.eval 0 vi) s = .next u ∧
        t = { s with envs := t.envs, ov := u.ov } ∧
        t.env (slotOf vi) =
          { s.env (slotOf vi) with stage := .release, position := 0, releaseValue := u.reg 0 } ∧
        ∀ e, e ≠ slotOf vi → t.env e = s.env e)

/-- 44_envelope.md R216, R217: nothing in mode NONE; in mode STEP the position of a timed stage grows,
saturating, and the stage ends where position times rate reaches 1.0. -/
def Obligations.EnvelopeAdvance : Prop :=
  ∀ (s : State) (vi : VoiceIdx) (e : Envelope), e = s.env (slotOf vi) →
    decode (wordV 0x27 0 0 vi) = .ok (.eadv vi) ∧
    (s.cfg.envAdvance = .off → exec (.eadv vi) s = .next s) ∧
    (e.stage = .sustain ∨ e.stage = .finished → exec (.eadv vi) s = .next s) ∧
    (s.cfg.envAdvance = .step →
      ∀ p ∈ [(EnvStage.attack, EnvStage.decay, e.attackRate), (.decay, .sustain, e.decayRate),
          (.release, .finished, e.releaseRate)],
        e.stage = p.1 → ∃ (t : State) (pos : Word), exec (.eadv vi) s = .next t ∧
          Reduced .sat (sint e.position + sint s.cfg.envStep) (sint pos) ∧
          t = { s with envs := t.envs, ov := t.ov } ∧
          (t.ov = true ↔ s.ov = true ∨ sint pos ≠ sint e.position + sint s.cfg.envStep) ∧
          (∀ k, k ≠ slotOf vi → t.env k = s.env k) ∧
          (2 ^ s.cfg.fS ≤ (sint pos * sint p.2.2).fdiv (2 ^ s.cfg.fS) →
            t.env (slotOf vi) = { e with stage := p.2.1, position := 0 }) ∧
          ((sint pos * sint p.2.2).fdiv (2 ^ s.cfg.fS) < 2 ^ s.cfg.fS →
            t.env (slotOf vi) = { e with position := pos }))

/-- Only ETRIG, EOFF, EADV, RUN and STS change an envelope, and in mode NONE not even EADV and RUN
(44_envelope.md R210, R216; 46_engine.md R262). -/
def Obligations.OnlyEnvelopeCommandsChangeEnvelopes : Prop :=
  ∀ (i : Instr) (s t : State), exec i s = .next t →
    (∀ vi, i ≠ .etrig vi) → (∀ vi, i ≠ .eoff vi) → (∀ rd rs1 imm, i ≠ .sts rd rs1 imm) →
    (s.cfg.envAdvance = .off ∨ ((∀ vi, i ≠ .eadv vi) ∧ ∀ rd rs1 rs2, i ≠ .run rd rs1 rs2)) →
    t.envs = s.envs

/-! Voices. -/

/-- 45_voice.md R230, R233, R234. -/
def Obligations.VoiceOnAndOff : Prop :=
  ∀ (s : State) (rs1 : Reg) (vi : VoiceIdx),
    (rs1.toNat ≤ 12 → decode (wordV 0x2A 0 rs1 vi) = .ok (.von rs1 vi) ∧
      ∃ t, exec (.von rs1 vi) s = .next t ∧ t = { s with voices := t.voices } ∧
        t.voice (slotOf vi) =
          { isOn := true, note := s.reg rs1, detune := s.reg (rs1 + 2), pan := s.reg (rs1 + 3),
            vibPhase := (s.voice (slotOf vi)).vibPhase, slideTime := s.knobs.slideTime, slideActive := false,
            slideDelta := 0, slideRemaining := 0, destNote := s.reg rs1, currentNote := s.reg rs1,
            oscPhase := (s.voice (slotOf vi)).oscPhase } ∧
        ∀ v, v ≠ slotOf vi → t.voice v = s.voice v) ∧
    (decode (wordV 0x2B 0 0 vi) = .ok (.voff vi) ∧
      ∃ t, exec (.voff vi) s = .next t ∧ t = { s with voices := t.voices } ∧
        t.voice (slotOf vi) = { s.voice (slotOf vi) with isOn := false } ∧
        ∀ v, v ≠ slotOf vi → t.voice v = s.voice v)

/-- 45_voice.md R231, R232, R235, R236: a glide of T whole samples starts, or the note lands at once where T is not
positive; one portamento step counts down and adds the delta, and on the last counted sample snaps to the
target. -/
def Obligations.PortamentoCommands : Prop :=
  ∀ (s : State) (rd rs1 : Reg) (vi : VoiceIdx) (v : Voice) (T : Int),
    v = s.voice (slotOf vi) → T = (sint v.slideTime).fdiv (2 ^ s.cfg.fQ) →
    (decode (wordV 0x2C 0 rs1 vi) = .ok (.vslide rs1 vi) ∧
      ∃ t, exec (.vslide rs1 vi) s = .next t ∧ t = { s with voices := t.voices } ∧
        (∀ k, k ≠ slotOf vi → t.voice k = s.voice k) ∧
        (T ≤ 0 → t.voice (slotOf vi) =
          { v with currentNote := s.reg rs1, note := s.reg rs1, destNote := s.reg rs1, slideActive := false,
                   slideDelta := 0, slideRemaining := 0 }) ∧
        (0 < T → ∃ d r : Word, Reduced .wrap ((s.x rs1 - sint v.currentNote).tdiv T) (sint d) ∧ sint r = T ∧
          t.voice (slotOf vi) =
            { v with destNote := s.reg rs1, slideDelta := d, slideRemaining := r, slideActive := true })) ∧
    (decode (wordV 0x2D rd 0 vi) = .ok (.vgetn rd vi) ∧
      ∃ t, exec (.vgetn rd vi) s = .next t ∧
        Wrote { s with voices := t.voices } rd (t.voice (slotOf vi)).currentNote t ∧
        (∀ k, k ≠ slotOf vi → t.voice k = s.voice k) ∧
        (v.slideActive = false → t.voice (slotOf vi) = v) ∧
        (v.slideActive = true → uint v.slideRemaining ≤ 1 → t.voice (slotOf vi) =
          { v with currentNote := v.destNote, note := v.destNote, slideActive := false, slideRemaining := 0 }) ∧
        (v.slideActive = true → 2 ≤ uint v.slideRemaining → ∃ n r : Word,
          Reduced .wrap (sint v.currentNote + sint v.slideDelta) (sint n) ∧ uint r + 1 = uint v.slideRemaining ∧
          t.voice (slotOf vi) = { v with slideRemaining := r, currentNote := n }))

/-- Portamento exactness (45_voice.md R239): after the start of a glide of T samples and exactly T portamento
steps the voice's note is the target, and after k < T steps it is wrap32(A + k delta). -/
def Obligations.PortamentoIsExact : Prop :=
  ∀ (s : State) (rd rs1 : Reg) (vi : VoiceIdx) (T : Int),
    T = (sint (s.voice (slotOf vi)).slideTime).fdiv (2 ^ s.cfg.fQ) →
    (∃ t, execAll (.vslide rs1 vi :: List.replicate T.toNat (.vgetn rd vi)) s t ∧
      (t.voice (slotOf vi)).currentNote = s.reg rs1 ∧ (t.voice (slotOf vi)).note = s.reg rs1 ∧
      (t.voice (slotOf vi)).slideActive = false ∧ (0 < T → t.reg rd = s.reg rs1)) ∧
    ∀ k : Nat, (k : Int) < T →
      ∃ t, execAll (.vslide rs1 vi :: List.replicate k (.vgetn rd vi)) s t ∧
        Reduced .wrap (sint (s.voice (slotOf vi)).currentNote + k * sint (t.voice (slotOf vi)).slideDelta)
          (sint (t.voice (slotOf vi)).currentNote)

/-- 45_voice.md R237, R238: phases stay in [0, 1.0). -/
def Obligations.PhaseAccumulators : Prop :=
  ∀ (s : State) (rd rs1 rs2 : Reg) (vi : VoiceIdx), s.cfg.legal = true →
    (∀ p ∈ [(Width.sample, Instr.phaccS rd rs1 rs2), (.half, .phaccH rd rs1 rs2), (.quarter, .phaccQ rd rs1 rs2)],
      decode (wordR 0x13 (widthBits p.1) rd rs1 rs2 0) = .ok p.2 ∧
      ∃ t, exec p.2 s = .next t ∧ WroteInt s rd ((s.x rs1 + s.x rs2) % 2 ^ frac s.cfg p.1) t) ∧
    (decode (wordV 0x2F 0 rs1 vi) = .ok (.vphadv rs1 vi) ∧
      ∃ (t : State) (p : Word), exec (.vphadv rs1 vi) s = .next t ∧
        sint p = (sint (s.voice (slotOf vi)).vibPhase + s.x rs1) % 2 ^ s.cfg.fS ∧
        t = { s with voices := t.voices } ∧
        t.voice (slotOf vi) = { s.voice (slotOf vi) with vibPhase := p } ∧
        ∀ v, v ≠ slotOf vi → t.voice v = s.voice v)

/-! The engine. -/

/-- 46_engine.md R250 to R252: the first free slot is filled; a full queue drops the event and nothing
changes. -/
def Obligations.QueueEvents : Prop :=
  ∀ (s : State) (rs1 rs2 rs3 : Reg),
    decode (wordR 0x30 0 rs3 rs1 rs2 0) = .ok (.noteon rs1 rs2 rs3) ∧
    decode (wordR 0x31 0 0 rs1 rs2 0) = .ok (.noteoff rs1 rs2) ∧
    ∀ p ∈ [(Instr.noteon rs1 rs2 rs3,
          ({ kind := .noteOn, delta := s.reg rs3, note := s.reg rs1, velocity := s.reg rs2 } : Event)),
        (.noteoff rs1 rs2, { kind := .noteOff, delta := s.reg rs2, note := s.reg rs1, velocity := 0 })],
      ((∀ k, (s.event k).kind ≠ .free) → exec p.1 s = .next s) ∧
      (∀ k, (s.event k).kind = .free → (∀ j, j < k → (s.event j).kind ≠ .free) →
        ∃ t, exec p.1 s = .next t ∧ t = { s with events := t.events } ∧ t.event k = p.2 ∧
          ∀ j, j ≠ k → t.event j = s.event j)

/-- 46_engine.md R264. -/
def Obligations.AllNotesOff : Prop :=
  ∀ s : State, decode 0xC8000000 = .ok .anoff ∧
    ∃ t, exec .anoff s = .next t ∧
      t = { s with voices := t.voices, activeNotes := t.activeNotes, noteCount := 0, events := t.events } ∧
      (∀ v, t.voice v = { s.voice v with isOn := false }) ∧
      (∀ i : Fin 4, t.activeNotes[i.val] = 0) ∧
      ∀ k, t.event k = { kind := .free, delta := 0, note := 0, velocity := 0 }

/-- RUN's checks and what it can change. A zero length or a block outside the RAM is a device error, which writes ERR
and ECODE alone (46_engine.md R253; 60_exceptions.md R306); a RUN that passes its checks changes RD, the event queue,
the voices, the words of its block in BUF, OV (which stays set), and in mode STEP the envelopes (R261). -/
def Obligations.RunChecksAndFrame : Prop :=
  ∀ (s : State) (rd rs1 rs2 : Reg) (len base : Nat),
    len = s.ux rs2 / 65536 → base = s.ux rs2 % 65536 →
    decode (wordR 0x33 0 rd rs1 rs2 0) = .ok (.run rd rs1 rs2) ∧
    (len = 0 → exec (.run rd rs1 rs2) s = .next { s with err := true, ecode := 1 }) ∧
    (len ≠ 0 → s.cfg.bufWords < base + len →
      exec (.run rd rs1 rs2) s = .next { s with err := true, ecode := 2 }) ∧
    (len ≠ 0 → base + len ≤ s.cfg.bufWords →
      ∃ t, exec (.run rd rs1 rs2) s = .next t ∧
        t = { s with regs := t.regs, ov := t.ov, events := t.events, voices := t.voices, envs := t.envs,
                     buf := t.buf } ∧
        (∀ r, r ≠ rd → t.reg r = s.reg r) ∧
        (∀ a, a < base ∨ base + len ≤ a → t.bufRead a = s.bufRead a) ∧
        (s.ov = true → t.ov = true) ∧ (s.cfg.envAdvance = .off → t.envs = s.envs))

/-- The song position (46_engine.md R254, R260): with one unit a sample it advances by len whatever the events do,
and with no event queued by len units of the configuration, rounded down; it wraps modulo 2^32. -/
def Obligations.RunAdvancesSongPosition : Prop :=
  ∀ (s : State) (rd rs1 rs2 : Reg) (len base : Nat),
    len = s.ux rs2 / 65536 → base = s.ux rs2 % 65536 → len ≠ 0 → base + len ≤ s.cfg.bufWords →
    ∃ t, exec (.run rd rs1 rs2) s = .next t ∧
      (s.cfg.songUnits = 48000 → t.ux rd = (s.ux rs1 + len) % 2 ^ 32) ∧
      ((∀ k, (s.event k).kind = .free) → t.ux rd = (s.ux rs1 + len * s.cfg.songUnits / 48000) % 2 ^ 32)

/-- The loop of RUN and its events (46_engine.md R254, R255, R259, R260). RUN is the loop of R254: in each pass the slots
are scanned in ascending order, a due note-on allocates and a due note-off releases, then the samples up to the next
event are rendered. An event with DELTA d inside the block is reached, still queued and with DELTA 0, after exactly d
samples and before sample d, so that the next pass fires it; its slot ends free. Every other event counts down by len,
and may reach 0 exactly at the end; a free slot stays. -/
def Obligations.RunConsumesDueEvents : Prop :=
  ∀ (s : State) (rd rs1 rs2 : Reg) (len base : Nat),
    len = s.ux rs2 / 65536 → base = s.ux rs2 % 65536 → len ≠ 0 → base + len ≤ s.cfg.bufWords →
    ∃ t u pos, exec (.run rd rs1 rs2) s = .next t ∧ RunLoop base len (s.ux rs1) s pos u ∧
      t = { u with regs := t.regs } ∧ t.ux rd = pos ∧ (∀ r, r ≠ rd → t.reg r = s.reg r) ∧
      ∀ k, ((s.event k).kind = .free → t.event k = s.event k) ∧
        ((s.event k).kind ≠ .free → uint (s.event k).delta < len →
          t.event k = { kind := .free, delta := 0, note := 0, velocity := 0 } ∧
          ∃ q v, RunLoop base (uint (s.event k).delta) (s.ux rs1) s q v ∧
            v.event k = { s.event k with delta := 0 } ∧
            RunLoop (base + uint (s.event k).delta) (len - uint (s.event k).delta) q v pos u) ∧
        ((s.event k).kind ≠ .free → len ≤ uint (s.event k).delta → ∃ d : Word,
          uint d + len = uint (s.event k).delta ∧ t.event k = { s.event k with delta := d })

/-- Rendering (46_engine.md R262), one voice at a time: a RUN with no event queued renders its samples in order, and in each
sample every voice that is on in ascending order, with ENV_ADVANCE once a sample in mode STEP. For one sample of one voice in
mode NONE the result is written out: the portamento step, the envelope's value and the view go to VOICE_RENDER, whose
sample is added into the buffer word, saturating, and whose phases are stored. -/
def Obligations.RunRendersOneVoice : Prop :=
  ∀ (s : State) (rd rs1 rs2 : Reg) (len base : Nat),
    len = s.ux rs2 / 65536 → base = s.ux rs2 % 65536 → len ≠ 0 → base + len ≤ s.cfg.bufWords →
    (∀ k, (s.event k).kind = .free) →
    ∃ t w, exec (.run rd rs1 rs2) s = .next t ∧ BlockRendered base len s w ∧ t = { w with regs := t.regs } ∧
      (∀ r, r ≠ rd → t.reg r = s.reg r) ∧
      ∀ v : Fin 8, len = 1 → s.cfg.envAdvance = .off → (∀ k, (s.voice k).isOn = true ↔ k = v) → ∃ out g u,
        exec (.vgetn 0 ⟨v.val, by omega⟩) s = .next g ∧ exec (.eval 0 ⟨v.val, by omega⟩) s = .next u ∧
        out = voiceRender s.cfg
          { voice := BitVec.ofNat 32 v.val, currentNote := (g.voice v).currentNote,
            detune := (s.voice v).detune, pan := (s.voice v).pan, vibPhase := (s.voice v).vibPhase,
            oscPhase := (s.voice v).oscPhase, envValue := u.reg 0, vibRate := s.knobs.vibRate,
            vibAmount := s.knobs.vibAmount } ∧
        Reduced .sat (sint (s.bufRead base) + sint out.sample) (sint (t.bufRead base)) ∧
        t.voice v = { g.voice v with oscPhase := out.oscPhase, vibPhase := out.vibPhase } ∧
        (∀ k, k ≠ v → t.voice k = s.voice k) ∧
        (t.ov = true ↔ u.ov = true ∨ sint (t.bufRead base) ≠ sint (s.bufRead base) + sint out.sample)

/-- The source's scenario (46_engine.md R265): with UNISONO 1, an empty queue and no voice on, a note-on with
delta 0 and a RUN leave exactly voice 0 on, with that note and the queue empty; ANOFF and any RUN after it leave every
BUF word as it was. -/
def Obligations.EndToEndScenario : Prop :=
  ∀ (s : State) (rd rs1 rs2 rs3 r4 r5 : Reg),
    uint s.knobs.unisono = 1 → (∀ k, (s.event k).kind = .free) → (∀ v, (s.voice v).isOn = false) →
    s.reg rs3 = 0 → s.ux r4 / 65536 ≠ 0 → s.ux r4 % 65536 + s.ux r4 / 65536 ≤ s.cfg.bufWords →
    ∃ t, execAll [.noteon rs1 rs2 rs3, .run rd r5 r4] s t ∧
      (∀ v, (t.voice v).isOn = true ↔ v = 0) ∧ (t.voice 0).note = s.reg rs1 ∧
      (∀ k, (t.event k).kind = .free) ∧
      ∀ rd' r4' r5' : Reg, ∃ u, execAll [.anoff, .run rd' r5' r4'] t u ∧ ∀ a, u.bufRead a = t.bufRead a

/-- Unison allocation (46_engine.md R256): scanning upward, the first UNISONO voices that are off are claimed; the
one with k off voices below it gets index j = U - 1 - k and from it fraction, detune and pan; a voice that is on
is never taken. OV is set exactly where it was set or the pan of a claimed voice was not kept, which needs PAN_SPREAD
-2^31; nothing else changes. -/
def Obligations.UnisonAllocation : Prop :=
  ∀ (s : State) (note velocity : Word) (U : Nat), s.cfg.legal = true → U = uint s.knobs.unisono →
    s.allocate note velocity =
      { s with voices := (s.allocate note velocity).voices, ov := (s.allocate note velocity).ov } ∧
    (sint s.knobs.panSpread ≠ -2147483648 → (s.allocate note velocity).ov = s.ov) ∧
    ((s.allocate note velocity).ov = true ↔ s.ov = true ∨
      ∃ (v : Fin 8) (k : Nat) (f : Int),
        k = ((List.finRange 8).filter fun u => u < v ∧ (s.voice u).isOn = false).length ∧
        (s.voice v).isOn = false ∧ k < U ∧ f = (((U : Int) - 1 - k) * 2 ^ s.cfg.fS).tdiv (max ((U : Int) - 1) 1) ∧
        sint ((s.allocate note velocity).voice v).pan ≠
          ((2 * f - 2 ^ s.cfg.fS) * sint s.knobs.panSpread).fdiv (2 ^ s.cfg.fS)) ∧
    ∀ (v : Fin 8) (k : Nat), k = ((List.finRange 8).filter fun u => u < v ∧ (s.voice u).isOn = false).length →
      ((s.voice v).isOn = true ∨ U ≤ k → (s.allocate note velocity).voice v = s.voice v) ∧
      ((s.voice v).isOn = false → k < U → ∃ (f : Int) (det pan : Word),
        f = (((U : Int) - 1 - k) * 2 ^ s.cfg.fS).tdiv (max ((U : Int) - 1) 1) ∧
        sint det = (f * sint s.knobs.detuneSpread).fdiv (2 ^ s.cfg.fS) ∧
        Reduced .sat (((2 * f - 2 ^ s.cfg.fS) * sint s.knobs.panSpread).fdiv (2 ^ s.cfg.fS)) (sint pan) ∧
        (s.allocate note velocity).voice v =
          { isOn := true, note := note, detune := det, pan := pan, vibPhase := (s.voice v).vibPhase,
            slideTime := s.knobs.slideTime, slideActive := false, slideDelta := 0, slideRemaining := 0,
            destNote := note, currentNote := note, oscPhase := (s.voice v).oscPhase })

/-- Unison spread determinism (46_engine.md R257): U = 3 against an empty pool. -/
def Obligations.UnisonOfThree : Prop :=
  ∀ (s : State) (note velocity : Word), s.cfg.legal = true → uint s.knobs.unisono = 3 →
    (∀ v, (s.voice v).isOn = false) →
    ∃ t, t = s.allocate note velocity ∧ (∀ v, (t.voice v).isOn = true ↔ v.val < 3) ∧
      sint (t.voice 0).detune = sint s.knobs.detuneSpread ∧
      sint (t.voice 1).detune = (sint s.knobs.detuneSpread * 2 ^ (s.cfg.fS - 1)).fdiv (2 ^ s.cfg.fS) ∧
      sint (t.voice 2).detune = 0 ∧ sint (t.voice 0).pan = sint s.knobs.panSpread ∧
      sint (t.voice 1).pan = 0 ∧ Reduced .sat (-sint s.knobs.panSpread) (sint (t.voice 2).pan)

/-- Release by note (46_engine.md R258): every voice that is on and whose NOTE equals the note in all 32 bits goes
off, and nothing else changes. -/
def Obligations.ReleaseByNote : Prop :=
  ∀ (s : State) (note : Word),
    s.release note = { s with voices := (s.release note).voices } ∧
    ∀ v, ((s.voice v).isOn = true ∧ (s.voice v).note = note →
        (s.release note).voice v = { s.voice v with isOn := false }) ∧
      (¬((s.voice v).isOn = true ∧ (s.voice v).note = note) → (s.release note).voice v = s.voice v)

/-! State and buffer access. -/

/-- The words of the state space at their addresses (20_memory.md R64; 10_state.md R24 to R32). -/
def Obligations.StateSpaceMap : Prop :=
  ∀ s : State,
    (∃ w, s.readState 0x000 = some w ∧ w.getLsbD 0 = s.ov ∧ w.getLsbD 1 = s.err ∧ w.extractLsb' 2 2 = 0 ∧
      w.extractLsb' 4 4 = s.ecode ∧ w.getLsbD 8 = (s.mode == .faulted) ∧ w.extractLsb' 9 3 = 0 ∧
      w.extractLsb' 12 4 = s.fcause ∧ w.extractLsb' 16 16 = 0) ∧
    s.readState 0x001 = some s.faultcmd ∧ s.readState 0x002 = some s.cfg.deviceId ∧
    (∃ w, s.readState 0x003 = some w ∧ w.extractLsb' 0 8 = BitVec.ofNat 8 s.cfg.fS ∧
      w.extractLsb' 8 8 = BitVec.ofNat 8 s.cfg.fH ∧ w.extractLsb' 16 8 = BitVec.ofNat 8 s.cfg.fQ ∧
      w.getLsbD 24 = (s.cfg.envAdvance == .step) ∧ w.getLsbD 25 = (s.cfg.interpProduct == .wrapProduct) ∧
      w.extractLsb' 26 6 = 0) ∧
    s.readState 0x004 = some s.seed ∧
    [0x008, 0x009, 0x00A, 0x00B, 0x00C, 0x00D, 0x00E].map s.readState =
      [some s.knobs.unisono, some s.knobs.detuneSpread, some s.knobs.panSpread, some s.knobs.vibRate,
       some s.knobs.vibAmount, some s.knobs.rise, some s.knobs.slideTime] ∧
    (∀ i : Fin 4, s.readState (0x010 + i.val) = some s.activeNotes[i.val]) ∧
    s.readState 0x014 = some s.noteCount ∧
    (∀ k : Fin 8, [0, 1, 2, 3].map (fun n : Int => s.readState (0x020 + 4 * k.val + n)) =
      [some (match (s.event k).kind with | .free => 0 | .noteOn => 1 | .noteOff => 2), some (s.event k).delta,
       some (s.event k).note, some (s.event k).velocity]) ∧
    (∀ v : Fin 8, [0, 1, 2, 3, 4, 5, 6, 7, 8, 9, 10, 11].map
        (fun n : Int => s.readState (0x040 + 16 * v.val + n)) =
      [some (if (s.voice v).isOn then 1 else 0), some (s.voice v).note, some (s.voice v).detune,
       some (s.voice v).pan, some (s.voice v).vibPhase, some (s.voice v).slideTime,
       some (if (s.voice v).slideActive then 1 else 0), some (s.voice v).slideDelta,
       some (s.voice v).slideRemaining, some (s.voice v).destNote, some (s.voice v).currentNote,
       some (s.voice v).oscPhase]) ∧
    (∀ e : Fin 8, [0, 1, 2, 3, 4, 5, 6].map (fun n : Int => s.readState (0x0C0 + 8 * e.val + n)) =
      [some (match (s.env e).stage with
         | .attack => 0 | .decay => 1 | .sustain => 2 | .release => 3 | .finished => 4),
       some (s.env e).position, some (s.env e).attackRate, some (s.env e).decayRate, some (s.env e).sustain,
       some (s.env e).releaseRate, some (s.env e).releaseValue]) ∧
    ∀ a, s.readState a = none ↔ Unreadable a

/-- 47_access.md R280, R281: the address is an unbounded sum; a reserved or unmapped one faults with
BAD_ADDR. -/
def Obligations.LoadStateWord : Prop :=
  ∀ (s : State) (rd rs1 : Reg) (imm : BitVec 16) (a : Int), a = s.x rs1 + imm.toInt →
    decode (wordI 0x38 0 rd rs1 imm) = .ok (.lds rd rs1 imm) ∧
    (Unreadable a → ∃ t, exec (.lds rd rs1 imm) s = .next t ∧ FaultedBy (wordI 0x38 0 rd rs1 imm) 6 s t) ∧
    (¬Unreadable a → ∃ t w, exec (.lds rd rs1 imm) s = .next t ∧ s.readState a = some w ∧ Wrote s rd w t)

/-- 47_access.md R282: BAD_ADDR first, then BAD_VALUE, else the store; a store to STATUS is write-1-to-clear. -/
def Obligations.StoreStateWord : Prop :=
  ∀ (s : State) (rd rs1 : Reg) (imm : BitVec 16) (a : Int), a = s.x rs1 + imm.toInt →
    decode (wordI 0x39 0 rd rs1 imm) = .ok (.sts rd rs1 imm) ∧
    (Unwritable a → ∃ t, exec (.sts rd rs1 imm) s = .next t ∧ FaultedBy (wordI 0x39 0 rd rs1 imm) 6 s t) ∧
    (¬Unwritable a → IllegalValue a (s.reg rd) →
      ∃ t, exec (.sts rd rs1 imm) s = .next t ∧ FaultedBy (wordI 0x39 0 rd rs1 imm) 7 s t) ∧
    (¬Unwritable a → ¬IllegalValue a (s.reg rd) →
      ∃ t, exec (.sts rd rs1 imm) s = .next t ∧ StoredState a (s.reg rd) s t)

/-- 47_access.md R283, R284: an address outside the RAM faults with BAD_ADDR; a store changes that one word. -/
def Obligations.BufferAccess : Prop :=
  ∀ (s : State) (rd rs1 : Reg) (imm : BitVec 16) (a : Int), a = s.x rs1 + imm.toInt →
    decode (wordI 0x3A 0 rd rs1 imm) = .ok (.ldb rd rs1 imm) ∧
    decode (wordI 0x3B 0 rd rs1 imm) = .ok (.stb rd rs1 imm) ∧
    (a < 0 ∨ s.cfg.bufWords ≤ a →
      (∃ t, exec (.ldb rd rs1 imm) s = .next t ∧ FaultedBy (wordI 0x3A 0 rd rs1 imm) 6 s t) ∧
      (∃ t, exec (.stb rd rs1 imm) s = .next t ∧ FaultedBy (wordI 0x3B 0 rd rs1 imm) 6 s t)) ∧
    (0 ≤ a → a < s.cfg.bufWords →
      (∃ t, exec (.ldb rd rs1 imm) s = .next t ∧ Wrote s rd (s.bufRead a.toNat) t) ∧
      (∃ t, exec (.stb rd rs1 imm) s = .next t ∧ StoredBuf a.toNat (s.reg rd) s t))

/-- The host bus (20_memory.md R69), in both modes: accesses as LDS, STS, LDB and STB, but a refused write
changes nothing, a refused read returns an unspecified word, and the block does not fault. -/
def Obligations.HostBusAccess : Prop :=
  ∀ (s : State) (a w : Word) (n : Int), n = (uint a : Int) →
    (∃ t r, serve (.busRead .state a) s = .next t ∧
      t = { s with busReply := some r, busDraws := t.busDraws } ∧ (¬Unreadable n → s.readState n = some r)) ∧
    (∃ t r, serve (.busRead .buf a) s = .next t ∧
      t = { s with busReply := some r, busDraws := t.busDraws } ∧
      (n < s.cfg.bufWords → r = s.bufRead (uint a))) ∧
    (Unwritable n ∨ IllegalValue n w → serve (.busWrite .state a w) s = .next s) ∧
    (¬Unwritable n → ¬IllegalValue n w →
      ∃ t, serve (.busWrite .state a w) s = .next t ∧ StoredState n w s t) ∧
    (s.cfg.bufWords ≤ n → serve (.busWrite .buf a w) s = .next s) ∧
    (n < s.cfg.bufWords → ∃ t, serve (.busWrite .buf a w) s = .next t ∧ StoredBuf (uint a) w s t)

/-! Frames over all commands. -/

/-- A command writes no operand register but its destination (10_state.md R23; 30_encoding.md R82). -/
def Obligations.OnlyDestinationRegisterChanges : Prop :=
  ∀ (i : Instr) (s t : State), exec i s = .next t → ∀ r, i.dest ≠ some r → t.reg r = s.reg r

/-- STATUS.OV is sticky (10_state.md R25): only STS clears it, only a command whose rule says so sets it. ERR and
ECODE are written only by RUN, and ERR cleared only by STS (10_state.md R24; 60_exceptions.md R306). -/
def Obligations.StatusFlagsFrame : Prop :=
  ∀ (i : Instr) (s t : State), exec i s = .next t → (∀ rd rs1 imm, i ≠ .sts rd rs1 imm) →
    (s.ov = true → t.ov = true) ∧ (i.mayOverflow = false → t.ov = s.ov) ∧
    (s.err = true → t.err = true) ∧
    ((∀ rd rs1 rs2, i ≠ .run rd rs1 rs2) → t.err = s.err ∧ t.ecode = s.ecode)

/-- The engine's state, command by command: the knobs are written only by STS (10_state.md R28), the note log only
by ANOFF and STS (46_engine.md R266), the event slots only by NOTEON, NOTEOFF, RUN, ANOFF and STS (10_state.md
R30), the voices only by VON, VOFF, VSLIDE, VGETN, VPHADV, RUN, ANOFF and STS (R31). -/
def Obligations.EngineStateFrame : Prop :=
  ∀ (i : Instr) (s t : State), exec i s = .next t → (∀ rd rs1 imm, i ≠ .sts rd rs1 imm) →
    t.knobs = s.knobs ∧
    (i ≠ .anoff → t.activeNotes = s.activeNotes ∧ t.noteCount = s.noteCount) ∧
    (i ≠ .anoff → (∀ rd rs1 rs2, i ≠ .run rd rs1 rs2) →
      ((∀ rs1 rs2 rs3, i ≠ .noteon rs1 rs2 rs3) → (∀ rs1 rs2, i ≠ .noteoff rs1 rs2) → t.events = s.events) ∧
      ((∀ rs1 vi, i ≠ .von rs1 vi) → (∀ vi, i ≠ .voff vi) → (∀ rs1 vi, i ≠ .vslide rs1 vi) →
        (∀ rd vi, i ≠ .vgetn rd vi) → (∀ rs1 vi, i ≠ .vphadv rs1 vi) → t.voices = s.voices))

/-- No command but STB and RUN changes a word of BUF (10_state.md R34). -/
def Obligations.OnlyStbAndRunWriteBuffer : Prop :=
  ∀ (i : Instr) (s t : State), exec i s = .next t → (∀ rd rs1 imm, i ≠ .stb rd rs1 imm) →
    (∀ rd rs1 rs2, i ≠ .run rd rs1 rs2) → ∀ a, t.bufRead a = s.bufRead a

/-! Faults, modes, reset. -/

/-- Faults are precise (60_exceptions.md R300, R302, R303, R305): a delivered command that leaves the block
FAULTED has changed nothing but FAULT, FCAUSE and FAULTCMD, its cause is one that the command can raise, and a
command that can raise none never faults. -/
def Obligations.FaultsArePrecise : Prop :=
  ∀ (s t : State) (w : Word) (i : Instr), s.mode = .ready → decode w = .ok i → runCommand w s = .next t →
    (t.mode = .faulted → ∃ c ∈ i.causes, FaultedBy w c s t) ∧
    (t.mode = .ready → t.fcause = s.fcause ∧ t.faultcmd = s.faultcmd) ∧
    (i.causes = [] → t.mode = .ready)

/-- FAULTED (60_exceptions.md R301): a command is discarded, host accesses work but neither leave FAULTED nor
change FCAUSE or FAULTCMD, and reset leaves it. -/
def Obligations.FaultedUntilReset : Prop :=
  ∀ (s t : State) (r : HostRequest), s.mode = .faulted → serve r s = .next t →
    (∀ w, r = .command w → t = s) ∧
    (r ≠ .reset → t.mode = .faulted ∧ t.fcause = s.fcause ∧ t.faultcmd = s.faultcmd) ∧
    (r = .reset → t.mode = .ready)

/-- Reset (70_reset_and_hazards.md R330; 10_state.md R37), from every state. The words of BUF are unspecified,
so the statement says nothing of them. -/
def Obligations.ResetValues : Prop :=
  ∀ s : State, ∃ t, serve .reset s = .next t ∧ t.mode = .ready ∧ (∀ r, t.reg r = 0) ∧
    t.readState 0 = some 0 ∧ t.faultcmd = 0 ∧ t.seed = s.cfg.rngSeedReset ∧ t.knobs.unisono = 1 ∧
    (∀ a : Fin 6, t.readState (9 + a.val) = some 0) ∧ (∀ a : Fin 5, t.readState (16 + a.val) = some 0) ∧
    (∀ k, t.event k = { kind := .free, delta := 0, note := 0, velocity := 0 }) ∧
    (∀ (v : Fin 8) (n : Fin 12), t.readState (0x40 + 16 * v.val + n.val) = some 0) ∧
    (∀ e, t.env e = { stage := .finished, position := 0, attackRate := 0, decayRate := 0, sustain := 0,
                      releaseRate := 0, releaseValue := 0 }) ∧
    t.cfg = s.cfg

/-- The configuration is fixed: no step changes it (70_reset_and_hazards.md R333). -/
def Obligations.ConfigurationIsFixed : Prop :=
  ∀ s t : State, step s = .next t → t.cfg = s.cfg

/-- The state after reset satisfies the invariant (the configuration is the model's own choice of some legal one,
log 1). -/
def Obligations.ResetSatisfiesInvariant : Prop := State.reset.Inv

/-- Every step keeps the invariant, whatever the host sends. -/
def Obligations.StepKeepsInvariant : Prop :=
  ∀ s t : State, s.Inv → step s = .next t → t.Inv

/-- A step runs the decoded command (10_state.md R20; 20_memory.md R70, R71): the host's oldest interaction is
taken off the list, and a command word that decodes is executed; with nothing pending the block keeps its state.
Every step ends in a next state. The list is the model's own (log 5). -/
def Obligations.StepRunsTheDeliveredCommand : Prop :=
  ∀ (s : State) (r : HostRequest) (rest : List HostRequest) (w : Word) (i : Instr),
    (s.host = [] → step s = .next s) ∧
    (s.host = r :: rest → step s = serve r { s with host := rest }) ∧
    (s.host = .command w :: rest → s.mode = .ready → decode w = .ok i →
      step s = exec i { s with host := rest }) ∧
    (s.mode = .ready → decode w = .ok i → step (s.withFetchWord 32 (uint w)) = exec i s) ∧
    ∃ t, step s = .next t
end

