-- ==== Sys2Proof/Laws/State.lean ====
section
/-! SUPPORT. One lemma per field and update of the state, true by `rfl`, so that no later proof unfolds a record
update; and what a register, voice, envelope or event slot reads as after a write of one. -/

namespace Sys2Proof.Machine

open Sys2Proof

/-! `setReg`. -/

@[simp] theorem State.setReg_cfg (s : State) (r : Reg) (w : Word) : (s.setReg r w).cfg = s.cfg := rfl
@[simp] theorem State.setReg_mode (s : State) (r : Reg) (w : Word) : (s.setReg r w).mode = s.mode := rfl
@[simp] theorem State.setReg_ov (s : State) (r : Reg) (w : Word) : (s.setReg r w).ov = s.ov := rfl
@[simp] theorem State.setReg_err (s : State) (r : Reg) (w : Word) : (s.setReg r w).err = s.err := rfl
@[simp] theorem State.setReg_ecode (s : State) (r : Reg) (w : Word) : (s.setReg r w).ecode = s.ecode := rfl
@[simp] theorem State.setReg_fcause (s : State) (r : Reg) (w : Word) : (s.setReg r w).fcause = s.fcause := rfl
@[simp] theorem State.setReg_faultcmd (s : State) (r : Reg) (w : Word) : (s.setReg r w).faultcmd = s.faultcmd := rfl
@[simp] theorem State.setReg_seed (s : State) (r : Reg) (w : Word) : (s.setReg r w).seed = s.seed := rfl
@[simp] theorem State.setReg_knobs (s : State) (r : Reg) (w : Word) : (s.setReg r w).knobs = s.knobs := rfl
@[simp] theorem State.setReg_activeNotes (s : State) (r : Reg) (w : Word) : (s.setReg r w).activeNotes = s.activeNotes := rfl
@[simp] theorem State.setReg_noteCount (s : State) (r : Reg) (w : Word) : (s.setReg r w).noteCount = s.noteCount := rfl
@[simp] theorem State.setReg_events (s : State) (r : Reg) (w : Word) : (s.setReg r w).events = s.events := rfl
@[simp] theorem State.setReg_voices (s : State) (r : Reg) (w : Word) : (s.setReg r w).voices = s.voices := rfl
@[simp] theorem State.setReg_envs (s : State) (r : Reg) (w : Word) : (s.setReg r w).envs = s.envs := rfl
@[simp] theorem State.setReg_buf (s : State) (r : Reg) (w : Word) : (s.setReg r w).buf = s.buf := rfl
@[simp] theorem State.setReg_bufEpoch (s : State) (r : Reg) (w : Word) : (s.setReg r w).bufEpoch = s.bufEpoch := rfl
@[simp] theorem State.setReg_host (s : State) (r : Reg) (w : Word) : (s.setReg r w).host = s.host := rfl
@[simp] theorem State.setReg_busReply (s : State) (r : Reg) (w : Word) : (s.setReg r w).busReply = s.busReply := rfl
@[simp] theorem State.setReg_busDraws (s : State) (r : Reg) (w : Word) : (s.setReg r w).busDraws = s.busDraws := rfl

/-! `raiseOv`. -/

@[simp] theorem State.raiseOv_cfg (s : State) (b : Bool) : (s.raiseOv b).cfg = s.cfg := rfl
@[simp] theorem State.raiseOv_mode (s : State) (b : Bool) : (s.raiseOv b).mode = s.mode := rfl
@[simp] theorem State.raiseOv_regs (s : State) (b : Bool) : (s.raiseOv b).regs = s.regs := rfl
@[simp] theorem State.raiseOv_err (s : State) (b : Bool) : (s.raiseOv b).err = s.err := rfl
@[simp] theorem State.raiseOv_ecode (s : State) (b : Bool) : (s.raiseOv b).ecode = s.ecode := rfl
@[simp] theorem State.raiseOv_fcause (s : State) (b : Bool) : (s.raiseOv b).fcause = s.fcause := rfl
@[simp] theorem State.raiseOv_faultcmd (s : State) (b : Bool) : (s.raiseOv b).faultcmd = s.faultcmd := rfl
@[simp] theorem State.raiseOv_seed (s : State) (b : Bool) : (s.raiseOv b).seed = s.seed := rfl
@[simp] theorem State.raiseOv_knobs (s : State) (b : Bool) : (s.raiseOv b).knobs = s.knobs := rfl
@[simp] theorem State.raiseOv_activeNotes (s : State) (b : Bool) : (s.raiseOv b).activeNotes = s.activeNotes := rfl
@[simp] theorem State.raiseOv_noteCount (s : State) (b : Bool) : (s.raiseOv b).noteCount = s.noteCount := rfl
@[simp] theorem State.raiseOv_events (s : State) (b : Bool) : (s.raiseOv b).events = s.events := rfl
@[simp] theorem State.raiseOv_voices (s : State) (b : Bool) : (s.raiseOv b).voices = s.voices := rfl
@[simp] theorem State.raiseOv_envs (s : State) (b : Bool) : (s.raiseOv b).envs = s.envs := rfl
@[simp] theorem State.raiseOv_buf (s : State) (b : Bool) : (s.raiseOv b).buf = s.buf := rfl
@[simp] theorem State.raiseOv_bufEpoch (s : State) (b : Bool) : (s.raiseOv b).bufEpoch = s.bufEpoch := rfl
@[simp] theorem State.raiseOv_host (s : State) (b : Bool) : (s.raiseOv b).host = s.host := rfl
@[simp] theorem State.raiseOv_busReply (s : State) (b : Bool) : (s.raiseOv b).busReply = s.busReply := rfl
@[simp] theorem State.raiseOv_busDraws (s : State) (b : Bool) : (s.raiseOv b).busDraws = s.busDraws := rfl

/-! `setVoice`. -/

@[simp] theorem State.setVoice_cfg (s : State) (v : Fin 8) (x : Voice) : (s.setVoice v x).cfg = s.cfg := rfl
@[simp] theorem State.setVoice_mode (s : State) (v : Fin 8) (x : Voice) : (s.setVoice v x).mode = s.mode := rfl
@[simp] theorem State.setVoice_regs (s : State) (v : Fin 8) (x : Voice) : (s.setVoice v x).regs = s.regs := rfl
@[simp] theorem State.setVoice_ov (s : State) (v : Fin 8) (x : Voice) : (s.setVoice v x).ov = s.ov := rfl
@[simp] theorem State.setVoice_err (s : State) (v : Fin 8) (x : Voice) : (s.setVoice v x).err = s.err := rfl
@[simp] theorem State.setVoice_ecode (s : State) (v : Fin 8) (x : Voice) : (s.setVoice v x).ecode = s.ecode := rfl
@[simp] theorem State.setVoice_fcause (s : State) (v : Fin 8) (x : Voice) : (s.setVoice v x).fcause = s.fcause := rfl
@[simp] theorem State.setVoice_faultcmd (s : State) (v : Fin 8) (x : Voice) : (s.setVoice v x).faultcmd = s.faultcmd := rfl
@[simp] theorem State.setVoice_seed (s : State) (v : Fin 8) (x : Voice) : (s.setVoice v x).seed = s.seed := rfl
@[simp] theorem State.setVoice_knobs (s : State) (v : Fin 8) (x : Voice) : (s.setVoice v x).knobs = s.knobs := rfl
@[simp] theorem State.setVoice_activeNotes (s : State) (v : Fin 8) (x : Voice) : (s.setVoice v x).activeNotes = s.activeNotes := rfl
@[simp] theorem State.setVoice_noteCount (s : State) (v : Fin 8) (x : Voice) : (s.setVoice v x).noteCount = s.noteCount := rfl
@[simp] theorem State.setVoice_events (s : State) (v : Fin 8) (x : Voice) : (s.setVoice v x).events = s.events := rfl
@[simp] theorem State.setVoice_envs (s : State) (v : Fin 8) (x : Voice) : (s.setVoice v x).envs = s.envs := rfl
@[simp] theorem State.setVoice_buf (s : State) (v : Fin 8) (x : Voice) : (s.setVoice v x).buf = s.buf := rfl
@[simp] theorem State.setVoice_bufEpoch (s : State) (v : Fin 8) (x : Voice) : (s.setVoice v x).bufEpoch = s.bufEpoch := rfl
@[simp] theorem State.setVoice_host (s : State) (v : Fin 8) (x : Voice) : (s.setVoice v x).host = s.host := rfl
@[simp] theorem State.setVoice_busReply (s : State) (v : Fin 8) (x : Voice) : (s.setVoice v x).busReply = s.busReply := rfl
@[simp] theorem State.setVoice_busDraws (s : State) (v : Fin 8) (x : Voice) : (s.setVoice v x).busDraws = s.busDraws := rfl

/-! `setEnv`. -/

@[simp] theorem State.setEnv_cfg (s : State) (e : Fin 8) (x : Envelope) : (s.setEnv e x).cfg = s.cfg := rfl
@[simp] theorem State.setEnv_mode (s : State) (e : Fin 8) (x : Envelope) : (s.setEnv e x).mode = s.mode := rfl
@[simp] theorem State.setEnv_regs (s : State) (e : Fin 8) (x : Envelope) : (s.setEnv e x).regs = s.regs := rfl
@[simp] theorem State.setEnv_ov (s : State) (e : Fin 8) (x : Envelope) : (s.setEnv e x).ov = s.ov := rfl
@[simp] theorem State.setEnv_err (s : State) (e : Fin 8) (x : Envelope) : (s.setEnv e x).err = s.err := rfl
@[simp] theorem State.setEnv_ecode (s : State) (e : Fin 8) (x : Envelope) : (s.setEnv e x).ecode = s.ecode := rfl
@[simp] theorem State.setEnv_fcause (s : State) (e : Fin 8) (x : Envelope) : (s.setEnv e x).fcause = s.fcause := rfl
@[simp] theorem State.setEnv_faultcmd (s : State) (e : Fin 8) (x : Envelope) : (s.setEnv e x).faultcmd = s.faultcmd := rfl
@[simp] theorem State.setEnv_seed (s : State) (e : Fin 8) (x : Envelope) : (s.setEnv e x).seed = s.seed := rfl
@[simp] theorem State.setEnv_knobs (s : State) (e : Fin 8) (x : Envelope) : (s.setEnv e x).knobs = s.knobs := rfl
@[simp] theorem State.setEnv_activeNotes (s : State) (e : Fin 8) (x : Envelope) : (s.setEnv e x).activeNotes = s.activeNotes := rfl
@[simp] theorem State.setEnv_noteCount (s : State) (e : Fin 8) (x : Envelope) : (s.setEnv e x).noteCount = s.noteCount := rfl
@[simp] theorem State.setEnv_events (s : State) (e : Fin 8) (x : Envelope) : (s.setEnv e x).events = s.events := rfl
@[simp] theorem State.setEnv_voices (s : State) (e : Fin 8) (x : Envelope) : (s.setEnv e x).voices = s.voices := rfl
@[simp] theorem State.setEnv_buf (s : State) (e : Fin 8) (x : Envelope) : (s.setEnv e x).buf = s.buf := rfl
@[simp] theorem State.setEnv_bufEpoch (s : State) (e : Fin 8) (x : Envelope) : (s.setEnv e x).bufEpoch = s.bufEpoch := rfl
@[simp] theorem State.setEnv_host (s : State) (e : Fin 8) (x : Envelope) : (s.setEnv e x).host = s.host := rfl
@[simp] theorem State.setEnv_busReply (s : State) (e : Fin 8) (x : Envelope) : (s.setEnv e x).busReply = s.busReply := rfl
@[simp] theorem State.setEnv_busDraws (s : State) (e : Fin 8) (x : Envelope) : (s.setEnv e x).busDraws = s.busDraws := rfl

/-! `setEvent`. -/

@[simp] theorem State.setEvent_cfg (s : State) (k : Fin 8) (x : Event) : (s.setEvent k x).cfg = s.cfg := rfl
@[simp] theorem State.setEvent_mode (s : State) (k : Fin 8) (x : Event) : (s.setEvent k x).mode = s.mode := rfl
@[simp] theorem State.setEvent_regs (s : State) (k : Fin 8) (x : Event) : (s.setEvent k x).regs = s.regs := rfl
@[simp] theorem State.setEvent_ov (s : State) (k : Fin 8) (x : Event) : (s.setEvent k x).ov = s.ov := rfl
@[simp] theorem State.setEvent_err (s : State) (k : Fin 8) (x : Event) : (s.setEvent k x).err = s.err := rfl
@[simp] theorem State.setEvent_ecode (s : State) (k : Fin 8) (x : Event) : (s.setEvent k x).ecode = s.ecode := rfl
@[simp] theorem State.setEvent_fcause (s : State) (k : Fin 8) (x : Event) : (s.setEvent k x).fcause = s.fcause := rfl
@[simp] theorem State.setEvent_faultcmd (s : State) (k : Fin 8) (x : Event) : (s.setEvent k x).faultcmd = s.faultcmd := rfl
@[simp] theorem State.setEvent_seed (s : State) (k : Fin 8) (x : Event) : (s.setEvent k x).seed = s.seed := rfl
@[simp] theorem State.setEvent_knobs (s : State) (k : Fin 8) (x : Event) : (s.setEvent k x).knobs = s.knobs := rfl
@[simp] theorem State.setEvent_activeNotes (s : State) (k : Fin 8) (x : Event) : (s.setEvent k x).activeNotes = s.activeNotes := rfl
@[simp] theorem State.setEvent_noteCount (s : State) (k : Fin 8) (x : Event) : (s.setEvent k x).noteCount = s.noteCount := rfl
@[simp] theorem State.setEvent_voices (s : State) (k : Fin 8) (x : Event) : (s.setEvent k x).voices = s.voices := rfl
@[simp] theorem State.setEvent_envs (s : State) (k : Fin 8) (x : Event) : (s.setEvent k x).envs = s.envs := rfl
@[simp] theorem State.setEvent_buf (s : State) (k : Fin 8) (x : Event) : (s.setEvent k x).buf = s.buf := rfl
@[simp] theorem State.setEvent_bufEpoch (s : State) (k : Fin 8) (x : Event) : (s.setEvent k x).bufEpoch = s.bufEpoch := rfl
@[simp] theorem State.setEvent_host (s : State) (k : Fin 8) (x : Event) : (s.setEvent k x).host = s.host := rfl
@[simp] theorem State.setEvent_busReply (s : State) (k : Fin 8) (x : Event) : (s.setEvent k x).busReply = s.busReply := rfl
@[simp] theorem State.setEvent_busDraws (s : State) (k : Fin 8) (x : Event) : (s.setEvent k x).busDraws = s.busDraws := rfl

/-! `bufWrite`. -/

@[simp] theorem State.bufWrite_cfg (s : State) (a : Nat) (w : Word) : (s.bufWrite a w).cfg = s.cfg := rfl
@[simp] theorem State.bufWrite_mode (s : State) (a : Nat) (w : Word) : (s.bufWrite a w).mode = s.mode := rfl
@[simp] theorem State.bufWrite_regs (s : State) (a : Nat) (w : Word) : (s.bufWrite a w).regs = s.regs := rfl
@[simp] theorem State.bufWrite_ov (s : State) (a : Nat) (w : Word) : (s.bufWrite a w).ov = s.ov := rfl
@[simp] theorem State.bufWrite_err (s : State) (a : Nat) (w : Word) : (s.bufWrite a w).err = s.err := rfl
@[simp] theorem State.bufWrite_ecode (s : State) (a : Nat) (w : Word) : (s.bufWrite a w).ecode = s.ecode := rfl
@[simp] theorem State.bufWrite_fcause (s : State) (a : Nat) (w : Word) : (s.bufWrite a w).fcause = s.fcause := rfl
@[simp] theorem State.bufWrite_faultcmd (s : State) (a : Nat) (w : Word) : (s.bufWrite a w).faultcmd = s.faultcmd := rfl
@[simp] theorem State.bufWrite_seed (s : State) (a : Nat) (w : Word) : (s.bufWrite a w).seed = s.seed := rfl
@[simp] theorem State.bufWrite_knobs (s : State) (a : Nat) (w : Word) : (s.bufWrite a w).knobs = s.knobs := rfl
@[simp] theorem State.bufWrite_activeNotes (s : State) (a : Nat) (w : Word) : (s.bufWrite a w).activeNotes = s.activeNotes := rfl
@[simp] theorem State.bufWrite_noteCount (s : State) (a : Nat) (w : Word) : (s.bufWrite a w).noteCount = s.noteCount := rfl
@[simp] theorem State.bufWrite_events (s : State) (a : Nat) (w : Word) : (s.bufWrite a w).events = s.events := rfl
@[simp] theorem State.bufWrite_voices (s : State) (a : Nat) (w : Word) : (s.bufWrite a w).voices = s.voices := rfl
@[simp] theorem State.bufWrite_envs (s : State) (a : Nat) (w : Word) : (s.bufWrite a w).envs = s.envs := rfl
@[simp] theorem State.bufWrite_bufEpoch (s : State) (a : Nat) (w : Word) : (s.bufWrite a w).bufEpoch = s.bufEpoch := rfl
@[simp] theorem State.bufWrite_host (s : State) (a : Nat) (w : Word) : (s.bufWrite a w).host = s.host := rfl
@[simp] theorem State.bufWrite_busReply (s : State) (a : Nat) (w : Word) : (s.bufWrite a w).busReply = s.busReply := rfl
@[simp] theorem State.bufWrite_busDraws (s : State) (a : Nat) (w : Word) : (s.bufWrite a w).busDraws = s.busDraws := rfl

/-! `writeStatus`. -/

@[simp] theorem State.writeStatus_cfg (s : State) (w : Word) : (s.writeStatus w).cfg = s.cfg := rfl
@[simp] theorem State.writeStatus_mode (s : State) (w : Word) : (s.writeStatus w).mode = s.mode := rfl
@[simp] theorem State.writeStatus_regs (s : State) (w : Word) : (s.writeStatus w).regs = s.regs := rfl
@[simp] theorem State.writeStatus_ecode (s : State) (w : Word) : (s.writeStatus w).ecode = s.ecode := rfl
@[simp] theorem State.writeStatus_fcause (s : State) (w : Word) : (s.writeStatus w).fcause = s.fcause := rfl
@[simp] theorem State.writeStatus_faultcmd (s : State) (w : Word) : (s.writeStatus w).faultcmd = s.faultcmd := rfl
@[simp] theorem State.writeStatus_seed (s : State) (w : Word) : (s.writeStatus w).seed = s.seed := rfl
@[simp] theorem State.writeStatus_knobs (s : State) (w : Word) : (s.writeStatus w).knobs = s.knobs := rfl
@[simp] theorem State.writeStatus_activeNotes (s : State) (w : Word) : (s.writeStatus w).activeNotes = s.activeNotes := rfl
@[simp] theorem State.writeStatus_noteCount (s : State) (w : Word) : (s.writeStatus w).noteCount = s.noteCount := rfl
@[simp] theorem State.writeStatus_events (s : State) (w : Word) : (s.writeStatus w).events = s.events := rfl
@[simp] theorem State.writeStatus_voices (s : State) (w : Word) : (s.writeStatus w).voices = s.voices := rfl
@[simp] theorem State.writeStatus_envs (s : State) (w : Word) : (s.writeStatus w).envs = s.envs := rfl
@[simp] theorem State.writeStatus_buf (s : State) (w : Word) : (s.writeStatus w).buf = s.buf := rfl
@[simp] theorem State.writeStatus_bufEpoch (s : State) (w : Word) : (s.writeStatus w).bufEpoch = s.bufEpoch := rfl
@[simp] theorem State.writeStatus_host (s : State) (w : Word) : (s.writeStatus w).host = s.host := rfl
@[simp] theorem State.writeStatus_busReply (s : State) (w : Word) : (s.writeStatus w).busReply = s.busReply := rfl
@[simp] theorem State.writeStatus_busDraws (s : State) (w : Word) : (s.writeStatus w).busDraws = s.busDraws := rfl

/-! `takeFault`. -/

@[simp] theorem takeFault_cfg (s : State) (w : Word) (c : Cause) : (takeFault w c s).cfg = s.cfg := rfl
@[simp] theorem takeFault_regs (s : State) (w : Word) (c : Cause) : (takeFault w c s).regs = s.regs := rfl
@[simp] theorem takeFault_ov (s : State) (w : Word) (c : Cause) : (takeFault w c s).ov = s.ov := rfl
@[simp] theorem takeFault_err (s : State) (w : Word) (c : Cause) : (takeFault w c s).err = s.err := rfl
@[simp] theorem takeFault_ecode (s : State) (w : Word) (c : Cause) : (takeFault w c s).ecode = s.ecode := rfl
@[simp] theorem takeFault_seed (s : State) (w : Word) (c : Cause) : (takeFault w c s).seed = s.seed := rfl
@[simp] theorem takeFault_knobs (s : State) (w : Word) (c : Cause) : (takeFault w c s).knobs = s.knobs := rfl
@[simp] theorem takeFault_activeNotes (s : State) (w : Word) (c : Cause) : (takeFault w c s).activeNotes = s.activeNotes := rfl
@[simp] theorem takeFault_noteCount (s : State) (w : Word) (c : Cause) : (takeFault w c s).noteCount = s.noteCount := rfl
@[simp] theorem takeFault_events (s : State) (w : Word) (c : Cause) : (takeFault w c s).events = s.events := rfl
@[simp] theorem takeFault_voices (s : State) (w : Word) (c : Cause) : (takeFault w c s).voices = s.voices := rfl
@[simp] theorem takeFault_envs (s : State) (w : Word) (c : Cause) : (takeFault w c s).envs = s.envs := rfl
@[simp] theorem takeFault_buf (s : State) (w : Word) (c : Cause) : (takeFault w c s).buf = s.buf := rfl
@[simp] theorem takeFault_bufEpoch (s : State) (w : Word) (c : Cause) : (takeFault w c s).bufEpoch = s.bufEpoch := rfl
@[simp] theorem takeFault_host (s : State) (w : Word) (c : Cause) : (takeFault w c s).host = s.host := rfl
@[simp] theorem takeFault_busReply (s : State) (w : Word) (c : Cause) : (takeFault w c s).busReply = s.busReply := rfl
@[simp] theorem takeFault_busDraws (s : State) (w : Word) (c : Cause) : (takeFault w c s).busDraws = s.busDraws := rfl

/-! `faultOf`. -/

@[simp] theorem faultOf_cfg (s : State) (i : Instr) (c : Cause) : (faultOf i c s).cfg = s.cfg := rfl
@[simp] theorem faultOf_regs (s : State) (i : Instr) (c : Cause) : (faultOf i c s).regs = s.regs := rfl
@[simp] theorem faultOf_ov (s : State) (i : Instr) (c : Cause) : (faultOf i c s).ov = s.ov := rfl
@[simp] theorem faultOf_err (s : State) (i : Instr) (c : Cause) : (faultOf i c s).err = s.err := rfl
@[simp] theorem faultOf_ecode (s : State) (i : Instr) (c : Cause) : (faultOf i c s).ecode = s.ecode := rfl
@[simp] theorem faultOf_seed (s : State) (i : Instr) (c : Cause) : (faultOf i c s).seed = s.seed := rfl
@[simp] theorem faultOf_knobs (s : State) (i : Instr) (c : Cause) : (faultOf i c s).knobs = s.knobs := rfl
@[simp] theorem faultOf_activeNotes (s : State) (i : Instr) (c : Cause) : (faultOf i c s).activeNotes = s.activeNotes := rfl
@[simp] theorem faultOf_noteCount (s : State) (i : Instr) (c : Cause) : (faultOf i c s).noteCount = s.noteCount := rfl
@[simp] theorem faultOf_events (s : State) (i : Instr) (c : Cause) : (faultOf i c s).events = s.events := rfl
@[simp] theorem faultOf_voices (s : State) (i : Instr) (c : Cause) : (faultOf i c s).voices = s.voices := rfl
@[simp] theorem faultOf_envs (s : State) (i : Instr) (c : Cause) : (faultOf i c s).envs = s.envs := rfl
@[simp] theorem faultOf_buf (s : State) (i : Instr) (c : Cause) : (faultOf i c s).buf = s.buf := rfl
@[simp] theorem faultOf_bufEpoch (s : State) (i : Instr) (c : Cause) : (faultOf i c s).bufEpoch = s.bufEpoch := rfl
@[simp] theorem faultOf_host (s : State) (i : Instr) (c : Cause) : (faultOf i c s).host = s.host := rfl
@[simp] theorem faultOf_busReply (s : State) (i : Instr) (c : Cause) : (faultOf i c s).busReply = s.busReply := rfl
@[simp] theorem faultOf_busDraws (s : State) (i : Instr) (c : Cause) : (faultOf i c s).busDraws = s.busDraws := rfl

/-! `deviceError`. -/

@[simp] theorem deviceError_cfg (s : State) (code : BitVec 4) : (deviceError code s).cfg = s.cfg := rfl
@[simp] theorem deviceError_mode (s : State) (code : BitVec 4) : (deviceError code s).mode = s.mode := rfl
@[simp] theorem deviceError_regs (s : State) (code : BitVec 4) : (deviceError code s).regs = s.regs := rfl
@[simp] theorem deviceError_ov (s : State) (code : BitVec 4) : (deviceError code s).ov = s.ov := rfl
@[simp] theorem deviceError_fcause (s : State) (code : BitVec 4) : (deviceError code s).fcause = s.fcause := rfl
@[simp] theorem deviceError_faultcmd (s : State) (code : BitVec 4) : (deviceError code s).faultcmd = s.faultcmd := rfl
@[simp] theorem deviceError_seed (s : State) (code : BitVec 4) : (deviceError code s).seed = s.seed := rfl
@[simp] theorem deviceError_knobs (s : State) (code : BitVec 4) : (deviceError code s).knobs = s.knobs := rfl
@[simp] theorem deviceError_activeNotes (s : State) (code : BitVec 4) : (deviceError code s).activeNotes = s.activeNotes := rfl
@[simp] theorem deviceError_noteCount (s : State) (code : BitVec 4) : (deviceError code s).noteCount = s.noteCount := rfl
@[simp] theorem deviceError_events (s : State) (code : BitVec 4) : (deviceError code s).events = s.events := rfl
@[simp] theorem deviceError_voices (s : State) (code : BitVec 4) : (deviceError code s).voices = s.voices := rfl
@[simp] theorem deviceError_envs (s : State) (code : BitVec 4) : (deviceError code s).envs = s.envs := rfl
@[simp] theorem deviceError_buf (s : State) (code : BitVec 4) : (deviceError code s).buf = s.buf := rfl
@[simp] theorem deviceError_bufEpoch (s : State) (code : BitVec 4) : (deviceError code s).bufEpoch = s.bufEpoch := rfl
@[simp] theorem deviceError_host (s : State) (code : BitVec 4) : (deviceError code s).host = s.host := rfl
@[simp] theorem deviceError_busReply (s : State) (code : BitVec 4) : (deviceError code s).busReply = s.busReply := rfl
@[simp] theorem deviceError_busDraws (s : State) (code : BitVec 4) : (deviceError code s).busDraws = s.busDraws := rfl

/-! The fields that an update changes. -/

@[simp] theorem State.raiseOv_ov (s : State) (b : Bool) : (s.raiseOv b).ov = (s.ov || b) := rfl
@[simp] theorem takeFault_mode (s : State) (w : Word) (c : Cause) : (takeFault w c s).mode = .faulted := rfl
@[simp] theorem takeFault_fcause (s : State) (w : Word) (c : Cause) :
    (takeFault w c s).fcause = causeCode c := rfl
@[simp] theorem takeFault_faultcmd (s : State) (w : Word) (c : Cause) : (takeFault w c s).faultcmd = w := rfl
@[simp] theorem faultOf_mode (s : State) (i : Instr) (c : Cause) : (faultOf i c s).mode = .faulted := rfl
@[simp] theorem faultOf_fcause (s : State) (i : Instr) (c : Cause) :
    (faultOf i c s).fcause = causeCode c := rfl
@[simp] theorem faultOf_faultcmd (s : State) (i : Instr) (c : Cause) :
    (faultOf i c s).faultcmd = encode i := rfl
@[simp] theorem deviceError_err (s : State) (code : BitVec 4) : (deviceError code s).err = true := rfl
@[simp] theorem deviceError_ecode (s : State) (code : BitVec 4) : (deviceError code s).ecode = code := rfl
@[simp] theorem State.writeStatus_ov (s : State) (w : Word) :
    (s.writeStatus w).ov = (s.ov && !w.getLsbD 0) := rfl
@[simp] theorem State.writeStatus_err (s : State) (w : Word) :
    (s.writeStatus w).err = (s.err && !w.getLsbD 1) := rfl

/-! Reads after writes. -/

theorem State.reg_setReg (s : State) (r r' : Reg) (w : Word) :
    (s.setReg r w).reg r' = if r' = r then w else s.reg r' := by
  unfold State.reg State.setReg
  simp only [Vector.getElem_set, BitVec.toNat_inj]
  split <;> split <;> simp_all

@[simp] theorem State.reg_setReg_same (s : State) (r : Reg) (w : Word) : (s.setReg r w).reg r = w := by
  simp [State.reg_setReg]

theorem State.reg_setReg_ne (s : State) {r r' : Reg} (w : Word) (h : r' ≠ r) :
    (s.setReg r w).reg r' = s.reg r' := by
  simp [State.reg_setReg, h]

@[simp] theorem State.x_setReg_same (s : State) (r : Reg) (w : Word) : (s.setReg r w).x r = sint w := by
  simp [State.x]

@[simp] theorem State.ux_setReg_same (s : State) (r : Reg) (w : Word) : (s.setReg r w).ux r = uint w := by
  simp [State.ux]

theorem State.voice_setVoice (s : State) (v u : Fin 8) (x : Voice) :
    (s.setVoice v x).voice u = if u = v then x else s.voice u := by
  unfold State.voice State.setVoice
  simp only [Vector.getElem_set, Fin.val_inj]
  split <;> split <;> simp_all

@[simp] theorem State.voice_setVoice_same (s : State) (v : Fin 8) (x : Voice) :
    (s.setVoice v x).voice v = x := by
  simp [State.voice_setVoice]

theorem State.env_setEnv (s : State) (e u : Fin 8) (x : Envelope) :
    (s.setEnv e x).env u = if u = e then x else s.env u := by
  unfold State.env State.setEnv
  simp only [Vector.getElem_set, Fin.val_inj]
  split <;> split <;> simp_all

@[simp] theorem State.env_setEnv_same (s : State) (e : Fin 8) (x : Envelope) : (s.setEnv e x).env e = x := by
  simp [State.env_setEnv]

theorem State.event_setEvent (s : State) (k u : Fin 8) (x : Event) :
    (s.setEvent k x).event u = if u = k then x else s.event u := by
  unfold State.event State.setEvent
  simp only [Vector.getElem_set, Fin.val_inj]
  split <;> split <;> simp_all

@[simp] theorem State.event_setEvent_same (s : State) (k : Fin 8) (x : Event) :
    (s.setEvent k x).event k = x := by
  simp [State.event_setEvent]

/-- A write of a voice's own value changes nothing. -/
theorem State.setVoice_self (s : State) (v : Fin 8) : s.setVoice v (s.voice v) = s := by
  unfold State.setVoice State.voice
  simp

/-- A write of an envelope's own value changes nothing. -/
theorem State.setEnv_self (s : State) (e : Fin 8) : s.setEnv e (s.env e) = s := by
  unfold State.setEnv State.env
  simp

/-! Readers through the updates of other fields. -/

@[simp] theorem State.setReg_voice (s : State) (r : Reg) (w : Word) (u : Fin 8) : (s.setReg r w).voice u = s.voice u := rfl
@[simp] theorem State.setReg_env (s : State) (r : Reg) (w : Word) (u : Fin 8) : (s.setReg r w).env u = s.env u := rfl
@[simp] theorem State.setReg_event (s : State) (r : Reg) (w : Word) (u : Fin 8) : (s.setReg r w).event u = s.event u := rfl
@[simp] theorem State.setReg_bufRead (s : State) (r : Reg) (w : Word) (addr : Nat) : (s.setReg r w).bufRead addr = s.bufRead addr := rfl

@[simp] theorem State.raiseOv_reg (s : State) (b : Bool) (r' : Reg) : (s.raiseOv b).reg r' = s.reg r' := rfl
@[simp] theorem State.raiseOv_x (s : State) (b : Bool) (r' : Reg) : (s.raiseOv b).x r' = s.x r' := rfl
@[simp] theorem State.raiseOv_ux (s : State) (b : Bool) (r' : Reg) : (s.raiseOv b).ux r' = s.ux r' := rfl
@[simp] theorem State.raiseOv_voice (s : State) (b : Bool) (u : Fin 8) : (s.raiseOv b).voice u = s.voice u := rfl
@[simp] theorem State.raiseOv_env (s : State) (b : Bool) (u : Fin 8) : (s.raiseOv b).env u = s.env u := rfl
@[simp] theorem State.raiseOv_event (s : State) (b : Bool) (u : Fin 8) : (s.raiseOv b).event u = s.event u := rfl
@[simp] theorem State.raiseOv_bufRead (s : State) (b : Bool) (addr : Nat) : (s.raiseOv b).bufRead addr = s.bufRead addr := rfl

@[simp] theorem State.setVoice_reg (s : State) (v : Fin 8) (x : Voice) (r' : Reg) : (s.setVoice v x).reg r' = s.reg r' := rfl
@[simp] theorem State.setVoice_x (s : State) (v : Fin 8) (x : Voice) (r' : Reg) : (s.setVoice v x).x r' = s.x r' := rfl
@[simp] theorem State.setVoice_ux (s : State) (v : Fin 8) (x : Voice) (r' : Reg) : (s.setVoice v x).ux r' = s.ux r' := rfl
@[simp] theorem State.setVoice_env (s : State) (v : Fin 8) (x : Voice) (u : Fin 8) : (s.setVoice v x).env u = s.env u := rfl
@[simp] theorem State.setVoice_event (s : State) (v : Fin 8) (x : Voice) (u : Fin 8) : (s.setVoice v x).event u = s.event u := rfl
@[simp] theorem State.setVoice_bufRead (s : State) (v : Fin 8) (x : Voice) (addr : Nat) : (s.setVoice v x).bufRead addr = s.bufRead addr := rfl

@[simp] theorem State.setEnv_reg (s : State) (e : Fin 8) (x : Envelope) (r' : Reg) : (s.setEnv e x).reg r' = s.reg r' := rfl
@[simp] theorem State.setEnv_x (s : State) (e : Fin 8) (x : Envelope) (r' : Reg) : (s.setEnv e x).x r' = s.x r' := rfl
@[simp] theorem State.setEnv_ux (s : State) (e : Fin 8) (x : Envelope) (r' : Reg) : (s.setEnv e x).ux r' = s.ux r' := rfl
@[simp] theorem State.setEnv_voice (s : State) (e : Fin 8) (x : Envelope) (u : Fin 8) : (s.setEnv e x).voice u = s.voice u := rfl
@[simp] theorem State.setEnv_event (s : State) (e : Fin 8) (x : Envelope) (u : Fin 8) : (s.setEnv e x).event u = s.event u := rfl
@[simp] theorem State.setEnv_bufRead (s : State) (e : Fin 8) (x : Envelope) (addr : Nat) : (s.setEnv e x).bufRead addr = s.bufRead addr := rfl

@[simp] theorem State.setEvent_reg (s : State) (k : Fin 8) (x : Event) (r' : Reg) : (s.setEvent k x).reg r' = s.reg r' := rfl
@[simp] theorem State.setEvent_x (s : State) (k : Fin 8) (x : Event) (r' : Reg) : (s.setEvent k x).x r' = s.x r' := rfl
@[simp] theorem State.setEvent_ux (s : State) (k : Fin 8) (x : Event) (r' : Reg) : (s.setEvent k x).ux r' = s.ux r' := rfl
@[simp] theorem State.setEvent_voice (s : State) (k : Fin 8) (x : Event) (u : Fin 8) : (s.setEvent k x).voice u = s.voice u := rfl
@[simp] theorem State.setEvent_env (s : State) (k : Fin 8) (x : Event) (u : Fin 8) : (s.setEvent k x).env u = s.env u := rfl
@[simp] theorem State.setEvent_bufRead (s : State) (k : Fin 8) (x : Event) (addr : Nat) : (s.setEvent k x).bufRead addr = s.bufRead addr := rfl

@[simp] theorem State.bufWrite_reg (s : State) (a : Nat) (w : Word) (r' : Reg) : (s.bufWrite a w).reg r' = s.reg r' := rfl
@[simp] theorem State.bufWrite_x (s : State) (a : Nat) (w : Word) (r' : Reg) : (s.bufWrite a w).x r' = s.x r' := rfl
@[simp] theorem State.bufWrite_ux (s : State) (a : Nat) (w : Word) (r' : Reg) : (s.bufWrite a w).ux r' = s.ux r' := rfl
@[simp] theorem State.bufWrite_voice (s : State) (a : Nat) (w : Word) (u : Fin 8) : (s.bufWrite a w).voice u = s.voice u := rfl
@[simp] theorem State.bufWrite_env (s : State) (a : Nat) (w : Word) (u : Fin 8) : (s.bufWrite a w).env u = s.env u := rfl
@[simp] theorem State.bufWrite_event (s : State) (a : Nat) (w : Word) (u : Fin 8) : (s.bufWrite a w).event u = s.event u := rfl

@[simp] theorem State.writeStatus_reg (s : State) (w : Word) (r' : Reg) : (s.writeStatus w).reg r' = s.reg r' := rfl
@[simp] theorem State.writeStatus_x (s : State) (w : Word) (r' : Reg) : (s.writeStatus w).x r' = s.x r' := rfl
@[simp] theorem State.writeStatus_ux (s : State) (w : Word) (r' : Reg) : (s.writeStatus w).ux r' = s.ux r' := rfl
@[simp] theorem State.writeStatus_voice (s : State) (w : Word) (u : Fin 8) : (s.writeStatus w).voice u = s.voice u := rfl
@[simp] theorem State.writeStatus_env (s : State) (w : Word) (u : Fin 8) : (s.writeStatus w).env u = s.env u := rfl
@[simp] theorem State.writeStatus_event (s : State) (w : Word) (u : Fin 8) : (s.writeStatus w).event u = s.event u := rfl
@[simp] theorem State.writeStatus_bufRead (s : State) (w : Word) (addr : Nat) : (s.writeStatus w).bufRead addr = s.bufRead addr := rfl

@[simp] theorem takeFault_reg (s : State) (w : Word) (c : Cause) (r' : Reg) : (takeFault w c s).reg r' = s.reg r' := rfl
@[simp] theorem takeFault_x (s : State) (w : Word) (c : Cause) (r' : Reg) : (takeFault w c s).x r' = s.x r' := rfl
@[simp] theorem takeFault_ux (s : State) (w : Word) (c : Cause) (r' : Reg) : (takeFault w c s).ux r' = s.ux r' := rfl
@[simp] theorem takeFault_voice (s : State) (w : Word) (c : Cause) (u : Fin 8) : (takeFault w c s).voice u = s.voice u := rfl
@[simp] theorem takeFault_env (s : State) (w : Word) (c : Cause) (u : Fin 8) : (takeFault w c s).env u = s.env u := rfl
@[simp] theorem takeFault_event (s : State) (w : Word) (c : Cause) (u : Fin 8) : (takeFault w c s).event u = s.event u := rfl
@[simp] theorem takeFault_bufRead (s : State) (w : Word) (c : Cause) (addr : Nat) : (takeFault w c s).bufRead addr = s.bufRead addr := rfl

@[simp] theorem faultOf_reg (s : State) (i : Instr) (c : Cause) (r' : Reg) : (faultOf i c s).reg r' = s.reg r' := rfl
@[simp] theorem faultOf_x (s : State) (i : Instr) (c : Cause) (r' : Reg) : (faultOf i c s).x r' = s.x r' := rfl
@[simp] theorem faultOf_ux (s : State) (i : Instr) (c : Cause) (r' : Reg) : (faultOf i c s).ux r' = s.ux r' := rfl
@[simp] theorem faultOf_voice (s : State) (i : Instr) (c : Cause) (u : Fin 8) : (faultOf i c s).voice u = s.voice u := rfl
@[simp] theorem faultOf_env (s : State) (i : Instr) (c : Cause) (u : Fin 8) : (faultOf i c s).env u = s.env u := rfl
@[simp] theorem faultOf_event (s : State) (i : Instr) (c : Cause) (u : Fin 8) : (faultOf i c s).event u = s.event u := rfl
@[simp] theorem faultOf_bufRead (s : State) (i : Instr) (c : Cause) (addr : Nat) : (faultOf i c s).bufRead addr = s.bufRead addr := rfl

@[simp] theorem deviceError_reg (s : State) (code : BitVec 4) (r' : Reg) : (deviceError code s).reg r' = s.reg r' := rfl
@[simp] theorem deviceError_x (s : State) (code : BitVec 4) (r' : Reg) : (deviceError code s).x r' = s.x r' := rfl
@[simp] theorem deviceError_ux (s : State) (code : BitVec 4) (r' : Reg) : (deviceError code s).ux r' = s.ux r' := rfl
@[simp] theorem deviceError_voice (s : State) (code : BitVec 4) (u : Fin 8) : (deviceError code s).voice u = s.voice u := rfl
@[simp] theorem deviceError_env (s : State) (code : BitVec 4) (u : Fin 8) : (deviceError code s).env u = s.env u := rfl
@[simp] theorem deviceError_event (s : State) (code : BitVec 4) (u : Fin 8) : (deviceError code s).event u = s.event u := rfl
@[simp] theorem deviceError_bufRead (s : State) (code : BitVec 4) (addr : Nat) : (deviceError code s).bufRead addr = s.bufRead addr := rfl

end Sys2Proof.Machine
end

