-- ==== Sys2Proof/Laws/Arith.lean ====
section
/-! SUPPORT. The integer primitives: what a word made of an integer holds, what `apply` and `result32` return, the
integer root, rounding, and the shift counts past which a shift changes nothing. -/

namespace Sys2Proof.Machine

open Sys2Proof

theorem sint_bounds (w : Word) : -2147483648 ≤ sint w ∧ sint w ≤ 2147483647 := by
  have h := BitVec.toInt_lt (x := w)
  have h' := BitVec.le_toInt (x := w)
  norm_num at h h'
  exact ⟨h', by show w.toInt ≤ _; omega⟩

theorem uint_lt (w : Word) : uint w < 4294967296 := w.isLt

@[simp] theorem sint_toWord (z : Int) : sint (toWord z) = wrap32 z := by
  simp [toWord, wrap32, BitVec.toInt_ofInt]

theorem wrap32_bounds (z : Int) : -2147483648 ≤ wrap32 z ∧ wrap32 z ≤ 2147483647 := by
  rw [← sint_toWord]; exact sint_bounds _

theorem wrap32_emod (z : Int) : (wrap32 z - z) % 4294967296 = 0 := by
  unfold wrap32; rw [Int.bmod_def]; split <;> omega

theorem wrap32_of_fits {z : Int} (h : fits32 z) : wrap32 z = z := by
  unfold wrap32; obtain ⟨h1, h2⟩ := h; simp only [minWord, maxWord] at h1 h2; rw [Int.bmod_def]; split <;> omega

theorem wrap32_sint (w : Word) : wrap32 (sint w) = sint w := wrap32_of_fits (sint_bounds w)

@[simp] theorem toWord_sint (w : Word) : toWord (sint w) = w := by
  apply BitVec.eq_of_toInt_eq
  show sint (toWord (sint w)) = sint w
  rw [sint_toWord, wrap32_sint]

theorem sint_toWord_of_fits {z : Int} (h : fits32 z) : sint (toWord z) = z := by
  rw [sint_toWord, wrap32_of_fits h]

/-- `result32` holds every integer that fits a word (00_scope.md R11). -/
theorem sint_result32 {z : Int} (h : fits32 z) : sint (result32 z) = z := by
  rw [result32, if_pos h, sint_toWord_of_fits h]

theorem applyVal_fits (m : Ovf) (z : Int) : fits32 (applyVal m z) := by
  cases m
  · exact wrap32_bounds z
  · simp only [applyVal, sat32, fits32, minWord, maxWord]; omega

@[simp] theorem sint_applyWord (m : Ovf) (z : Int) : sint (applyWord m z) = applyVal m z :=
  sint_toWord_of_fits (applyVal_fits m z)

/-- `apply(M, z)` returns z reduced (00_scope.md R11). -/
theorem reduced_applyVal (m : Ovf) (z : Int) : Reduced m z (applyVal m z) := by
  have h := applyVal_fits m z
  refine ⟨h.1, h.2, ?_⟩
  cases m
  · exact wrap32_emod z
  · simp only [applyVal, sat32, minWord, maxWord]; omega

/-- A reduction has one value. -/
theorem Reduced.unique {m : Ovf} {z v v' : Int} (h : Reduced m z v) (h' : Reduced m z v') : v = v' := by
  obtain ⟨a, b, c⟩ := h
  obtain ⟨a', b', c'⟩ := h'
  cases m <;> simp only at c c' <;> omega

theorem reduced_iff {m : Ovf} {z v : Int} : Reduced m z v ↔ v = applyVal m z :=
  ⟨fun h => h.unique (reduced_applyVal m z), fun h => h ▸ reduced_applyVal m z⟩

theorem applyVal_of_fits (m : Ovf) {z : Int} (h : fits32 z) : applyVal m z = z := by
  cases m
  · exact wrap32_of_fits h
  · simp only [fits32, minWord, maxWord] at h
    simp only [applyVal, sat32, minWord, maxWord]; omega

theorem overflows_of_fits (m : Ovf) {z : Int} (h : fits32 z) : overflows m z = false := by
  simp [overflows, applyVal_of_fits m h]

/-! Spec lemmas of the three ways to write a result. -/

/-- What `setReg` does. -/
theorem wrote_setReg (s : State) (rd : Reg) (w : Word) : Wrote s rd w (s.setReg rd w) :=
  ⟨rfl, by simp, fun _ h => State.reg_setReg_ne s w h⟩

/-- What `setReg` of an integer's word does. -/
theorem wroteInt_setReg (s : State) (rd : Reg) {w : Word} {z : Int} (h : sint w = z) :
    WroteInt s rd z (s.setReg rd w) :=
  ⟨rfl, by simpa using h, fun _ h => State.reg_setReg_ne s w h⟩

/-- What `setResult` does with an integer that fits. -/
theorem wroteInt_setResult (s : State) (rd : Reg) {z : Int} (h : fits32 z) :
    WroteInt s rd z (s.setResult rd z) :=
  wroteInt_setReg s rd (sint_result32 h)

/-- What `setApply` does. -/
theorem applied_setApply (s : State) (rd : Reg) (m : Ovf) (z : Int) :
    Applied s rd m z (s.setApply rd m z) := by
  refine ⟨rfl, ?_, ?_, fun r h => ?_⟩
  · simpa [State.setApply] using reduced_applyVal m z
  · simp [State.setApply, overflows]
  · simp [State.setApply, State.reg_setReg_ne _ _ h]

/-- What a fault of a command does. -/
theorem faultedBy_faultOf (i : Instr) (c : Cause) (s : State) :
    FaultedBy (encode i) (causeCode c) s (faultOf i c s) := rfl

/-! The integer root (00_scope.md R10; 40_alu.md R130). -/

theorem isqrtFrom_spec (k r u : Nat) (h1 : r * r ≤ u) (h2 : u < (r + 2 ^ k) * (r + 2 ^ k)) :
    isqrtFrom k r u * isqrtFrom k r u ≤ u ∧ u < (isqrtFrom k r u + 1) * (isqrtFrom k r u + 1) := by
  induction k generalizing r with
  | zero => exact ⟨h1, by simpa [isqrtFrom] using h2⟩
  | succ k ih =>
    unfold isqrtFrom
    have e : r + 2 ^ k + 2 ^ k = r + 2 ^ (k + 1) := by rw [pow_succ]; ring
    split
    · next h => exact ih _ h (by rwa [e])
    · next h => exact ih _ h1 (by omega)

theorem isqrt_spec {u : Nat} (h : u < 2 ^ 32) :
    isqrt u * isqrt u ≤ u ∧ u < (isqrt u + 1) * (isqrt u + 1) :=
  isqrtFrom_spec 16 0 u (by omega) (by norm_num at *; omega)

theorem isRoot_isqrt {a : Int} (h0 : 0 ≤ a) (h1 : a ≤ maxWord) : IsRoot (isqrt a.toNat) a := by
  have h := isqrt_spec (u := a.toNat) (by simp only [maxWord] at h1; norm_num; omega)
  have e : ((a.toNat : Nat) : Int) = a := Int.toNat_of_nonneg h0
  constructor
  · have := h.1; zify at this; rw [e] at this; exact this
  · have := h.2; zify at this; rw [e] at this; exact this

/-! Floor division by a power of two. -/

theorem pow2_eq (n : Nat) : pow2 n = 2 ^ n := by simp [pow2]

theorem pow2_pos (n : Nat) : 0 < pow2 n := by rw [pow2_eq]; positivity

theorem fdiv_eq_ediv (a : Int) {b : Int} (h : 0 ≤ b) : a.fdiv b = a / b := Int.fdiv_eq_ediv_of_nonneg a h

theorem asr_eq (a : Int) (n : Nat) : asr a n = a / 2 ^ n := by
  rw [asr, fdiv, pow2_eq, Int.fdiv_eq_ediv_of_nonneg _ (by positivity)]

theorem asr_eq_fdiv (a : Int) (n : Nat) : asr a n = a.fdiv (2 ^ n) := by rw [asr, fdiv, pow2_eq]

theorem shl_eq (a : Int) (n : Nat) : shl a n = a * 2 ^ n := by rw [shl, pow2_eq]

theorem fmod_pow2 (a : Int) (n : Nat) : fmod a (pow2 n) = a % 2 ^ n := by
  rw [fmod, fdiv, pow2_eq, Int.fdiv_eq_ediv_of_nonneg _ (by positivity)]
  have := Int.mul_ediv_add_emod a (2 ^ n)
  omega

/-- Rounding down keeps an interval that holds 0. -/
theorem ediv_mem {a lo hi : Int} (b : Int) (hb : 0 < b) (h1 : lo ≤ a) (h2 : a ≤ hi) (hlo : lo ≤ 0) (hhi : 0 ≤ hi) :
    lo ≤ a / b ∧ a / b ≤ hi := by
  constructor
  · rw [Int.le_ediv_iff_mul_le hb]; nlinarith
  · apply Int.ediv_le_of_le_mul hb; nlinarith

theorem asr_fits {a : Int} (n : Nat) (h : fits32 a) : fits32 (asr a n) := by
  rw [asr_eq]; obtain ⟨h1, h2⟩ := h
  exact ediv_mem _ (by positivity) h1 h2 (by decide) (by decide)

/-! ASH past 64 places (log 14). -/

theorem asr_far {a : Int} (h : fits32 a) {n : Nat} (hn : 31 ≤ n) : asr a n = if a < 0 then -1 else 0 := by
  rw [asr_eq]
  have hp : (2147483648 : Int) ≤ 2 ^ n := by
    calc (2147483648 : Int) = 2 ^ 31 := by norm_num
      _ ≤ 2 ^ n := pow_le_pow_right₀ (by norm_num) hn
  obtain ⟨h1, h2⟩ := h
  simp only [minWord, maxWord] at h1 h2
  split
  · rw [Int.ediv_eq_iff_of_pos (by omega)]; constructor <;> omega
  · exact Int.ediv_eq_zero_of_lt (by omega) (by omega)

/-- Every shift of 64 places or more gives the same `apply` result, overflow included. -/
theorem shl_far (m : Ovf) (a : Int) {n k : Nat} (hn : 32 ≤ n) (hk : 32 ≤ k) :
    applyVal m (shl a n) = applyVal m (shl a k) ∧ overflows m (shl a n) = overflows m (shl a k) := by
  have key : ∀ j, 32 ≤ j → applyVal m (shl a j) =
      match m with | .wrap => 0 | .sat => if a < 0 then minWord else if a = 0 then 0 else maxWord := by
    intro j hj
    rw [shl_eq]
    have hp : (4294967296 : Int) ≤ 2 ^ j := by
      calc (4294967296 : Int) = 2 ^ 32 := by norm_num
        _ ≤ 2 ^ j := pow_le_pow_right₀ (by norm_num) hj
    cases m
    · simp only [applyVal, wrap32]
      have hd : (4294967296 : Int) ∣ a * 2 ^ j := by
        have : (4294967296 : Int) ∣ 2 ^ j := ⟨2 ^ (j - 32), by
          rw [show (4294967296 : Int) = 2 ^ 32 by norm_num, ← pow_add]; congr 1; omega⟩
        exact Dvd.dvd.mul_left this a
      exact Int.bmod_eq_zero_of_dvd hd
    · simp only [applyVal, sat32, minWord, maxWord]
      split
      · have : a * 2 ^ j ≤ -4294967296 := by nlinarith
        omega
      · split
        · next h => subst h; simp
        · have : 1 ≤ a := by omega
          have : 4294967296 ≤ a * 2 ^ j := by nlinarith
          omega
  have nz : ∀ j, 32 ≤ j → (overflows m (shl a j) = true ↔ a ≠ 0) := by
    intro j hj
    rw [overflows, decide_eq_true_iff, key j hj, shl_eq]
    have hp : (4294967296 : Int) ≤ 2 ^ j := by
      calc (4294967296 : Int) = 2 ^ 32 := by norm_num
        _ ≤ 2 ^ j := pow_le_pow_right₀ (by norm_num) hj
    constructor
    · rintro h rfl; apply h; cases m <;> simp
    · intro ha h
      cases m
      · simp only at h
        rcases mul_eq_zero.mp h.symm with h | h
        · exact ha h
        · omega
      · simp only [minWord, maxWord, ha, if_false] at h
        split at h
        · nlinarith
        · have : 1 ≤ a := by omega
          nlinarith
  refine ⟨by rw [key n hn, key k hk], ?_⟩
  rw [Bool.eq_iff_iff, nz n hn, nz k hk]

/-! What a legal configuration gives. -/

/-- The bounds on the fractional-bit counts of a legal configuration (00_scope.md R6). -/
theorem legal_frac {c : Config} (h : c.legal = true) :
    c.fS ≤ 30 ∧ c.fH < c.fS ∧ c.fQ < c.fH ∧ 9 ≤ c.fS ∧ 9 ≤ c.fH ∧ c.fH ≤ 16 ∧ c.fQ ≤ 12 ∧ c.fS % 2 = 0 ∧
      c.fH % 2 = 0 ∧ c.fQ % 2 = 0 := by
  simp only [Config.legal, Bool.and_eq_true, Config.fracLegal, decide_eq_true_iff] at h
  exact h.1.1

theorem frac_le {c : Config} (h : c.legal = true) (w : Width) : frac c w ≤ 30 := by
  have := legal_frac h
  cases w <;> simp only [frac] <;> omega

end Sys2Proof.Machine
end

