-- ==== Sys2Proof/Laws/Encoding.lean ====
section
/-! SUPPORT. The fields of a word and the word of fields are inverse; each piece of an encoder's IMM16
reads back as it was put in, and IMM16 is rebuilt from its pieces. -/

namespace Sys2Proof

@[simp] theorem Fields.ofWord_toWord (f : Fields) : Fields.ofWord f.toWord = f := by
  obtain ⟨op, w, rd, rs1, imm⟩ := f
  simp only [Fields.ofWord, Fields.toWord, Fields.mk.injEq]
  refine ⟨?_, ?_, ?_, ?_, ?_⟩ <;>
    (ext i hi; simp only [BitVec.getElem_extractLsb', BitVec.getLsbD_append]; grind)

@[simp] theorem Fields.toWord_ofWord (c : Word) : (Fields.ofWord c).toWord = c := by
  ext i hi
  simp only [Fields.ofWord, Fields.toWord]
  grind

theorem Fields.ofWord_injective {c d : Word} (h : Fields.ofWord c = Fields.ofWord d) : c = d := by
  rw [← Fields.toWord_ofWord c, h, Fields.toWord_ofWord]

theorem immR_pieces (rs2 : Reg) (m : BitVec 2) :
    (immR rs2 m).extractLsb' 12 4 = rs2 ∧ (immR rs2 m).extractLsb' 10 2 = m ∧
      (immR rs2 m).extractLsb' 0 10 = 0 := by
  refine ⟨?_, ?_, ?_⟩ <;> (ext i hi; simp only [immR]; grind)

/-- A piece cut out of `a ++ b` at `b`'s own place is `b`. -/
theorem append_low {n k : Nat} (a : BitVec n) (b : BitVec k) : (a ++ b).extractLsb' 0 k = b := by
  ext i hi; grind

/-- A piece cut out of `a ++ b` above `b` is `a`. -/
theorem append_high {n k : Nat} (a : BitVec n) (b : BitVec k) : (a ++ b).extractLsb' k n = a := by
  ext i hi; grind

/-- A vector is its high piece followed by its low piece. -/
theorem append_rebuild {n k : Nat} (v : BitVec (n + k)) :
    v.extractLsb' k n ++ v.extractLsb' 0 k = v := by
  ext i hi; grind

@[simp] theorem ovfOf_ovfBits (m : Ovf) : ovfOf (ovfBits m) = some m := by cases m <;> rfl

theorem ovfBits_of_ovfOf {b : BitVec 2} {m : Ovf} (h : ovfOf b = some m) : ovfBits m = b := by
  revert b; cases m <;> decide

/-! What each format reader accepts: exactly the fields of its encoder. -/

theorem need_ok {b : Bool} {e : DecodeError} {k : Except DecodeError Instr} {i : Instr} :
    need b e k = .ok i ↔ b = true ∧ k = .ok i := by
  cases b <;> simp [need]

theorem needOvf_ok {b : BitVec 2} {k : Ovf → Except DecodeError Instr} {i : Instr} :
    needOvf b k = .ok i ↔ ∃ m, b = ovfBits m ∧ k m = .ok i := by
  unfold needOvf
  constructor
  · intro h
    split at h
    · rename_i m hm; exact ⟨m, (ovfBits_of_ovfOf hm).symm, h⟩
    · cases h
  · rintro ⟨m, rfl, h⟩; simpa using h

theorem Fields.byW1_ok {f : Fields} {kS : Except DecodeError Instr} {i : Instr} :
    f.byW1 kS = .ok i ↔ f.w = 0#2 ∧ kS = .ok i := by
  obtain ⟨op, w, rd, rs1, imm⟩ := f
  revert w; simp only [Fields.byW1]; intro w
  match w with
  | 0#2 | 1#2 | 2#2 | 3#2 => simp

theorem Fields.byW2_ok {f : Fields} {kS kH : Except DecodeError Instr} {i : Instr} :
    f.byW2 kS kH = .ok i ↔ (f.w = 0#2 ∧ kS = .ok i) ∨ (f.w = 1#2 ∧ kH = .ok i) := by
  obtain ⟨op, w, rd, rs1, imm⟩ := f
  revert w; simp only [Fields.byW2]; intro w
  match w with
  | 0#2 | 1#2 | 2#2 | 3#2 => simp

theorem Fields.byW3_ok {f : Fields} {kS kH kQ : Except DecodeError Instr} {i : Instr} :
    f.byW3 kS kH kQ = .ok i ↔
      (f.w = 0#2 ∧ kS = .ok i) ∨ (f.w = 1#2 ∧ kH = .ok i) ∨ (f.w = 2#2 ∧ kQ = .ok i) := by
  obtain ⟨op, w, rd, rs1, imm⟩ := f
  revert w; simp only [Fields.byW3]; intro w
  match w with
  | 0#2 | 1#2 | 2#2 | 3#2 => simp

theorem immR_eq {imm : BitVec 16} {rs2 : Reg} {m : BitVec 2} :
    imm = immR rs2 m ↔
      imm.extractLsb' 12 4 = rs2 ∧ imm.extractLsb' 10 2 = m ∧ imm.extractLsb' 0 10 = 0#10 := by
  constructor
  · rintro rfl; exact immR_pieces rs2 m
  · rintro ⟨rfl, rfl, h⟩
    have e := append_rebuild (n := 6) (k := 10) imm
    have e6 : imm.extractLsb' 10 6 = imm.extractLsb' 12 4 ++ imm.extractLsb' 10 2 := by
      ext i hi; grind
    rw [h, e6] at e
    exact e.symm

theorem append_eq {n k : Nat} {v : BitVec (n + k)} {a : BitVec n} {b : BitVec k} :
    v = a ++ b ↔ v.extractLsb' k n = a ∧ v.extractLsb' 0 k = b := by
  constructor
  · rintro rfl; exact ⟨append_high a b, append_low a b⟩
  · rintro ⟨rfl, rfl⟩; exact (append_rebuild v).symm

theorem Fields.fmtN1_ok {f : Fields} {x i : Instr} :
    f.fmtN1 x = .ok i ↔ i = x ∧ f = encN1 f.op f.w := by
  obtain ⟨op, w, rd, rs1, imm⟩ := f
  simp only [fmtN1, need_ok, encN1, Fields.mk.injEq, Bool.and_eq_true, beq_iff_eq, Except.ok.injEq]
  grind

theorem Fields.fmtR3M_ok {f : Fields} {k : Reg → Reg → Reg → Ovf → Instr} {i : Instr} :
    f.fmtR3M k = .ok i ↔ ∃ rd rs1 rs2 m, i = k rd rs1 rs2 m ∧ f = encR3M f.op f.w rd rs1 rs2 m := by
  obtain ⟨op, w, rd, rs1, imm⟩ := f
  simp only [fmtR3M, needOvf_ok, need_ok, encR3M, Fields.mk.injEq, beq_iff_eq, Except.ok.injEq, immR_eq,
    Fields.m, Fields.low, Fields.rs2]
  grind

theorem Fields.fmtR3_ok {f : Fields} {k : Reg → Reg → Reg → Instr} {i : Instr} :
    f.fmtR3 k = .ok i ↔ ∃ rd rs1 rs2, i = k rd rs1 rs2 ∧ f = encR3 f.op f.w rd rs1 rs2 := by
  obtain ⟨op, w, rd, rs1, imm⟩ := f
  simp only [fmtR3, need_ok, encR3, Fields.mk.injEq, beq_iff_eq, Except.ok.injEq, immR_eq,
    Fields.m, Fields.low, Fields.rs2]
  grind

theorem Fields.fmtR2M_ok {f : Fields} {k : Reg → Reg → Ovf → Instr} {i : Instr} :
    f.fmtR2M k = .ok i ↔ ∃ rd rs1 m, i = k rd rs1 m ∧ f = encR2M f.op f.w rd rs1 m := by
  obtain ⟨op, w, rd, rs1, imm⟩ := f
  simp only [fmtR2M, needOvf_ok, need_ok, encR2M, Fields.mk.injEq, beq_iff_eq, Except.ok.injEq, immR_eq,
    Fields.m, Fields.low, Fields.rs2, Bool.and_eq_true]
  grind

theorem immR_zero : (0 : BitVec 16) = immR 0 0 := by decide

theorem Fields.fmtR2_ok {f : Fields} {k : Reg → Reg → Instr} {i : Instr} :
    f.fmtR2 k = .ok i ↔ ∃ rd rs1, i = k rd rs1 ∧ f = encR2 f.op f.w rd rs1 := by
  obtain ⟨op, w, rd, rs1, imm⟩ := f
  simp only [fmtR2, need_ok, encR2, Fields.mk.injEq, beq_iff_eq, Except.ok.injEq, immR_zero, immR_eq,
    Fields.m, Fields.low, Fields.rs2, Bool.and_eq_true]
  grind

theorem Fields.fmtRd_ok {f : Fields} {k : Reg → Instr} {i : Instr} :
    f.fmtRd k = .ok i ↔ ∃ rd, i = k rd ∧ f = encRd f.op f.w rd := by
  obtain ⟨op, w, rd, rs1, imm⟩ := f
  simp only [fmtRd, need_ok, encRd, Fields.mk.injEq, beq_iff_eq, Except.ok.injEq, immR_zero, immR_eq,
    Fields.m, Fields.low, Fields.rs2, Bool.and_eq_true]
  grind

theorem Fields.fmtRs1_ok {f : Fields} {k : Reg → Instr} {i : Instr} :
    f.fmtRs1 k = .ok i ↔ ∃ rs1, i = k rs1 ∧ f = encRs1 f.op f.w rs1 := by
  obtain ⟨op, w, rd, rs1, imm⟩ := f
  simp only [fmtRs1, need_ok, encRs1, Fields.mk.injEq, beq_iff_eq, Except.ok.injEq, immR_zero, immR_eq,
    Fields.m, Fields.low, Fields.rs2, Bool.and_eq_true]
  grind

theorem Fields.fmtRs12_ok {f : Fields} {k : Reg → Reg → Instr} {i : Instr} :
    f.fmtRs12 k = .ok i ↔ ∃ rs1 rs2, i = k rs1 rs2 ∧ f = encRs12 f.op f.w rs1 rs2 := by
  obtain ⟨op, w, rd, rs1, imm⟩ := f
  simp only [fmtRs12, need_ok, encRs12, Fields.mk.injEq, beq_iff_eq, Except.ok.injEq, immR_eq,
    Fields.m, Fields.low, Fields.rs2, Bool.and_eq_true]
  grind

theorem Fields.fmtT_ok {f : Fields} {k : Reg → Reg → Reg → Instr} {i : Instr} :
    f.fmtT k = .ok i ↔ ∃ rs1 rs2 rs3, i = k rs1 rs2 rs3 ∧ f = encT f.op f.w rs1 rs2 rs3 := by
  obtain ⟨op, w, rd, rs1, imm⟩ := f
  simp only [fmtT, need_ok, encT, Fields.mk.injEq, beq_iff_eq, Except.ok.injEq, immR_eq,
    Fields.m, Fields.low, Fields.rs2, Bool.and_eq_true]
  grind

theorem Fields.fmtIRd_ok {f : Fields} {k : Reg → BitVec 16 → Instr} {i : Instr} :
    f.fmtIRd k = .ok i ↔ ∃ rd imm, i = k rd imm ∧ f = encIRd f.op f.w rd imm := by
  obtain ⟨op, w, rd, rs1, imm⟩ := f
  simp only [fmtIRd, need_ok, encIRd, Fields.mk.injEq, beq_iff_eq, Except.ok.injEq]
  grind

theorem Fields.fmtI_ok {f : Fields} {k : Reg → Reg → BitVec 16 → Instr} {i : Instr} :
    f.fmtI k = .ok i ↔ ∃ rd rs1 imm, i = k rd rs1 imm ∧ f = encI f.op f.w rd rs1 imm := by
  obtain ⟨op, w, rd, rs1, imm⟩ := f
  simp only [fmtI, encI, Fields.mk.injEq, Except.ok.injEq]
  grind

theorem Fields.fmtSh_ok {f : Fields} {k : Reg → Reg → BitVec 5 → Instr} {i : Instr} :
    f.fmtSh k = .ok i ↔ ∃ rd rs1 sh, i = k rd rs1 sh ∧ f = encSh f.op f.w rd rs1 sh := by
  obtain ⟨op, w, rd, rs1, imm⟩ := f
  simp only [fmtSh, need_ok, encSh, Fields.mk.injEq, beq_iff_eq, Except.ok.injEq,
    append_eq (n := 11) (k := 5)]
  grind

theorem Fields.fmtTli_ok {f : Fields} {k : Reg → Reg → InterpTable → Instr} {i : Instr} :
    f.fmtTli k = .ok i ↔ ∃ rd rs1 t, i = k rd rs1 t ∧ f = encTli f.op f.w rd rs1 t := by
  obtain ⟨op, w, rd, rs1, imm⟩ := f
  simp only [fmtTli, need_ok, encTli, Fields.mk.injEq, beq_iff_eq, Except.ok.injEq,
    append_eq (n := 15) (k := 1)]
  generalize imm.extractLsb' 0 1 = b
  constructor
  · rintro ⟨h, rfl⟩
    refine ⟨rd, rs1, _, rfl, trivial, trivial, rfl, rfl, h, ?_⟩
    match b with
    | 0#1 | 1#1 => rfl
  · rintro ⟨rd', rs1', t, rfl, _, _, rfl, rfl, h, rfl⟩
    refine ⟨h, ?_⟩
    cases t <;> rfl

theorem append2_eq {a b c : Nat} {v : BitVec (a + b + c)} {x : BitVec a} {y : BitVec b} {z : BitVec c} :
    v = x ++ y ++ z ↔
      v.extractLsb' (c + b) a = x ∧ v.extractLsb' c b = y ∧ v.extractLsb' 0 c = z := by
  rw [append_eq, append_eq]
  have h1 : (v.extractLsb' c (a + b)).extractLsb' b a = v.extractLsb' (c + b) a := by
    ext i hi; simp only [BitVec.getElem_extractLsb', BitVec.getLsbD_extractLsb']
    rw [show c + (b + i) = c + b + i by omega]; simp
    intro; omega
  have h2 : (v.extractLsb' c (a + b)).extractLsb' 0 b = v.extractLsb' c b := by
    ext i hi; simp only [BitVec.getElem_extractLsb', BitVec.getLsbD_extractLsb']
    simp; intro; omega
  rw [h1, h2, and_assoc]

theorem Fields.fmtCvt_ok {f : Fields} {kS kH kQ : Reg → Reg → Ovf → Instr} {i : Instr} :
    f.fmtCvt kS kH kQ = .ok i ↔ ∃ rd rs1 m tw,
      ((i = kS rd rs1 m ∧ tw = 0#2) ∨ (i = kH rd rs1 m ∧ tw = 1#2) ∨ (i = kQ rd rs1 m ∧ tw = 2#2)) ∧
        f = ⟨f.op, f.w, rd, rs1, 0#12 ++ ovfBits m ++ tw⟩ := by
  obtain ⟨op, w, rd, rs1, imm⟩ := f
  simp only [fmtCvt, needOvf_ok, need_ok, Fields.mk.injEq, beq_iff_eq,
    append2_eq (a := 12) (b := 2) (c := 2)]
  generalize imm.extractLsb' 0 2 = b
  match b with
  | 0#2 | 1#2 | 2#2 | 3#2 => simp; try grind

theorem Fields.fmtRom_ok {f : Fields} {kS kE kN : Reg → Reg → Instr} {i : Instr} :
    f.fmtRom kS kE kN = .ok i ↔ ∃ rd rs1 t,
      ((i = kS rd rs1 ∧ t = 0#2) ∨ (i = kE rd rs1 ∧ t = 1#2) ∨ (i = kN rd rs1 ∧ t = 2#2)) ∧
        f = ⟨f.op, f.w, rd, rs1, 0#14 ++ t⟩ := by
  obtain ⟨op, w, rd, rs1, imm⟩ := f
  simp only [fmtRom, need_ok, Fields.mk.injEq, beq_iff_eq, append_eq (n := 14) (k := 2)]
  generalize imm.extractLsb' 0 2 = b
  match b with
  | 0#2 | 1#2 | 2#2 | 3#2 => simp; try grind

/-- The conversion that a function code names (43_conversions.md R190). -/
theorem Fields.fmtConv_ok {f : Fields} {i : Instr} :
    f.fmtConv = .ok i ↔ ∃ rd rs1 m fn,
      ((i = .db2g rd rs1 m ∧ fn = 0#4) ∨ (i = .g2db rd rs1 m ∧ fn = 1#4) ∨ (i = .ev2s rd rs1 m ∧ fn = 2#4) ∨
       (i = .s2ev rd rs1 m ∧ fn = 3#4) ∨ (i = .vol2s rd rs1 m ∧ fn = 4#4) ∨ (i = .s2vol rd rs1 m ∧ fn = 5#4) ∨
       (i = .p2b rd rs1 m ∧ fn = 6#4) ∨ (i = .p2f rd rs1 m ∧ fn = 7#4) ∨ (i = .p2q rd rs1 m ∧ fn = 8#4) ∨
       (i = .p2st rd rs1 m ∧ fn = 9#4)) ∧
        f = ⟨f.op, f.w, rd, rs1, 0#10 ++ ovfBits m ++ fn⟩ := by
  obtain ⟨op, w, rd, rs1, imm⟩ := f
  simp only [fmtConv, needOvf_ok, need_ok, Fields.mk.injEq, beq_iff_eq,
    append2_eq (a := 10) (b := 2) (c := 4)]
  generalize imm.extractLsb' 0 4 = b
  obtain ⟨⟨n, hn⟩⟩ := b
  interval_cases n <;> (simp; try grind)

theorem Fields.fmtV_ok {f : Fields} {k : VoiceIdx → Instr} {i : Instr} :
    f.fmtV k = .ok i ↔ ∃ vi, i = k vi ∧ f = encV f.op f.w vi := by
  obtain ⟨op, w, rd, rs1, imm⟩ := f
  simp only [fmtV, need_ok, encV, Fields.mk.injEq, beq_iff_eq, Except.ok.injEq, Bool.and_eq_true,
    append_eq (n := 13) (k := 3), Fields.vi]
  grind

theorem Fields.fmtVRd_ok {f : Fields} {k : Reg → VoiceIdx → Instr} {i : Instr} :
    f.fmtVRd k = .ok i ↔ ∃ rd vi, i = k rd vi ∧ f = encVRd f.op f.w rd vi := by
  obtain ⟨op, w, rd, rs1, imm⟩ := f
  simp only [fmtVRd, need_ok, encVRd, Fields.mk.injEq, beq_iff_eq, Except.ok.injEq, Bool.and_eq_true,
    append_eq (n := 13) (k := 3), Fields.vi]
  grind

theorem Fields.fmtVRs1_ok {f : Fields} {k : Reg → VoiceIdx → Instr} {i : Instr} :
    f.fmtVRs1 k = .ok i ↔ ∃ rs1 vi, i = k rs1 vi ∧ f = encVRs1 f.op f.w rs1 vi := by
  obtain ⟨op, w, rd, rs1, imm⟩ := f
  simp only [fmtVRs1, need_ok, encVRs1, Fields.mk.injEq, beq_iff_eq, Except.ok.injEq, Bool.and_eq_true,
    append_eq (n := 13) (k := 3), Fields.vi]
  grind

theorem Fields.fmtVQuad_ok {f : Fields} {k : Reg → VoiceIdx → Instr} {i : Instr} :
    f.fmtVQuad k = .ok i ↔
      ∃ rs1 vi, quadFits rs1 = true ∧ i = k rs1 vi ∧ f = encVRs1 f.op f.w rs1 vi := by
  obtain ⟨op, w, rd, rs1, imm⟩ := f
  simp only [fmtVQuad, need_ok, encVRs1, Fields.mk.injEq, beq_iff_eq, Except.ok.injEq,
    Bool.and_eq_true, append_eq (n := 13) (k := 3), Fields.vi]
  grind

end Sys2Proof
end

