-- ==== Sys2Proof/Laws/Mem.lean ====
section
/-! SUPPORT. BUF: a read after a write, and that every operation on BUF keeps its canonical form and its
bound. -/

namespace Sys2Proof.Machine

open Sys2Proof

/-- A listing reads as the last word listed for an address. -/
theorem Buf.lookup_insert (b : Buf) (a c : Nat) (w : Word) :
    (b.insert a w).lookup c = if c = a then some w else b.lookup c := by
  induction b with
  | nil => simp [Buf.insert, Buf.lookup]
  | cons p rest ih =>
    obtain ⟨k, v⟩ := p
    simp only [Buf.insert]
    split
    · simp [Buf.lookup]
    · split
      · next h => subst h; by_cases hc : c = a <;> simp [Buf.lookup, hc]
      · next h1 h2 =>
        simp only [Buf.lookup, ih]
        by_cases hc : c = a
        · subst hc; simp [h2]
        · simp [hc]

/-- The addresses of a listing after an insertion are the old ones and the new one. -/
theorem Buf.mem_insert {b : Buf} {a : Nat} {w : Word} {p : Nat × Word} (h : p ∈ b.insert a w) :
    p = (a, w) ∨ p ∈ b := by
  induction b with
  | nil => simpa [Buf.insert] using h
  | cons q rest ih =>
    obtain ⟨k, v⟩ := q
    simp only [Buf.insert] at h
    split at h
    · simpa using h
    · split at h
      · simp only [List.mem_cons] at h ⊢; tauto
      · simp only [List.mem_cons] at h ⊢
        rcases h with h | h
        · tauto
        · have := ih h; tauto

/-- An insertion keeps the canonical form. -/
theorem Buf.insert_wf {b : Buf} (a : Nat) (w : Word) (h : b.wf) : (b.insert a w).wf := by
  induction b with
  | nil => simp [Buf.insert, Buf.wf]
  | cons q rest ih =>
    obtain ⟨k, v⟩ := q
    obtain ⟨h1, h2⟩ := List.pairwise_cons.mp h
    simp only [Buf.insert]
    split
    · next hlt =>
      refine List.pairwise_cons.mpr ⟨fun p hp => ?_, h⟩
      rcases List.mem_cons.mp hp with rfl | hp
      · exact hlt
      · exact hlt.trans (h1 p hp)
    · split
      · next heq => subst heq; exact List.pairwise_cons.mpr ⟨h1, h2⟩
      · refine List.pairwise_cons.mpr ⟨fun p hp => ?_, ih h2⟩
        rcases Buf.mem_insert hp with rfl | hp
        · show k < a; omega
        · exact h1 p hp

/-- BUF after reset is in canonical form. -/
theorem State.resetWith_buf_wf (c : Config) : Buf.wf (State.resetWith c).buf := by simp [State.resetWith, Buf.wf]

theorem State.bufRead_bufWrite (s : State) (a c : Nat) (w : Word) :
    (s.bufWrite a w).bufRead c = if c = a then w else s.bufRead c := by
  simp only [State.bufRead, State.bufWrite, Buf.lookup_insert]
  split <;> rfl

@[simp] theorem State.bufRead_bufWrite_same (s : State) (a : Nat) (w : Word) :
    (s.bufWrite a w).bufRead a = w := by
  simp [State.bufRead_bufWrite]

theorem State.bufRead_bufWrite_ne (s : State) {a c : Nat} (w : Word) (h : c ≠ a) :
    (s.bufWrite a w).bufRead c = s.bufRead c := by
  simp [State.bufRead_bufWrite, h]

/-- A write to BUF keeps the canonical form. -/
theorem State.bufWrite_wf {s : State} (a : Nat) (w : Word) (h : Buf.wf s.buf) : Buf.wf (s.bufWrite a w).buf :=
  Buf.insert_wf a w h

/-- A write inside the RAM keeps every listed address inside it. -/
theorem State.bufWrite_in {s : State} {a : Nat} (w : Word) {n : Nat} (h : ∀ p ∈ s.buf, p.1 < n) (ha : a < n) :
    ∀ p ∈ (s.bufWrite a w).buf, p.1 < n := by
  intro p hp
  rcases Buf.mem_insert hp with rfl | hp
  · exact ha
  · exact h p hp

end Sys2Proof.Machine
end

