-- ==== Sys2Proof/Laws/Engine.lean ====
section
/-! SUPPORT. What each shared operation of the engine can change: one frame that every part of RUN meets, and what
the event queue becomes in a pass. -/

namespace Sys2Proof.Machine

open Sys2Proof

/-- What a part of RUN that writes BUF words `lo` to `hi - 1` can change (46_engine.md R261). -/
structure RunFrame (lo hi : Nat) (s t : State) : Prop where
  rest : t = { s with ov := t.ov, events := t.events, voices := t.voices, envs := t.envs, buf := t.buf }
  ov : s.ov = true → t.ov = true
  envs : s.cfg.envAdvance = .off → t.envs = s.envs
  buf : ∀ a, a < lo ∨ hi ≤ a → t.bufRead a = s.bufRead a
  wf : Buf.wf s.buf → Buf.wf t.buf
  inside : ∀ n, hi ≤ n → (∀ p ∈ s.buf, p.1 < n) → ∀ p ∈ t.buf, p.1 < n

variable {lo hi : Nat} {s t u : State}

theorem RunFrame.refl (lo hi : Nat) (s : State) : RunFrame lo hi s s :=
  ⟨rfl, id, fun _ => rfl, fun _ _ => rfl, id, fun _ _ h => h⟩

theorem RunFrame.cfg (h : RunFrame lo hi s t) : t.cfg = s.cfg := by rw [h.rest]

theorem RunFrame.trans (h : RunFrame lo hi s t) (h' : RunFrame lo hi t u) : RunFrame lo hi s u where
  rest := by rw [h'.rest, h.rest]
  ov := fun x => h'.ov (h.ov x)
  envs := fun x => (h'.envs (h.cfg ▸ x)).trans (h.envs x)
  buf := fun a x => (h'.buf a x).trans (h.buf a x)
  wf := fun x => h'.wf (h.wf x)
  inside := fun n hn x => h'.inside n hn (h.inside n hn x)

theorem RunFrame.widen {lo' hi' : Nat} (h : RunFrame lo hi s t) (h1 : lo' ≤ lo) (h2 : hi ≤ hi') :
    RunFrame lo' hi' s t :=
  ⟨h.rest, h.ov, h.envs, fun a x => h.buf a (by omega), h.wf, fun n hn => h.inside n (by omega)⟩

theorem RunFrame.foldl {α : Type} {f : State → α → State} (h : ∀ s x, RunFrame lo hi s (f s x)) (l : List α)
    (s : State) : RunFrame lo hi s (l.foldl f s) := by
  induction l generalizing s with
  | nil => exact .refl _ _ _
  | cons x l ih => exact (h s x).trans (ih _)

theorem RunFrame.setVoice (s : State) (v : Fin 8) (x : Voice) : RunFrame lo hi s (s.setVoice v x) :=
  ⟨rfl, id, fun _ => rfl, fun _ _ => rfl, id, fun _ _ h => h⟩

theorem RunFrame.setEvent (s : State) (k : Fin 8) (x : Event) : RunFrame lo hi s (s.setEvent k x) :=
  ⟨rfl, id, fun _ => rfl, fun _ _ => rfl, id, fun _ _ h => h⟩

theorem RunFrame.raiseOv (s : State) (b : Bool) : RunFrame lo hi s (s.raiseOv b) :=
  ⟨rfl, fun h => by simp [h], fun _ => rfl, fun _ _ => rfl, id, fun _ _ h => h⟩

theorem RunFrame.bufWrite (s : State) {a : Nat} (w : Word) (h1 : lo ≤ a) (h2 : a < hi) :
    RunFrame lo hi s (s.bufWrite a w) :=
  ⟨rfl, id, fun _ => rfl, fun c hc => State.bufRead_bufWrite_ne s w (by omega), State.bufWrite_wf a w,
    fun _ hn h => State.bufWrite_in w h (by omega)⟩

theorem RunFrame.envAdvance (s : State) (e : Fin 8) : RunFrame lo hi s (s.envAdvance e) := by
  cases hm : s.cfg.envAdvance
  · have h0 : s.envAdvance e = s := by simp [State.envAdvance, hm]
    rw [h0]; exact .refl _ _ _
  · refine ⟨?_, fun h => ?_, fun h => ?_, fun a _ => ?_, fun h => ?_, fun n _ h => ?_⟩
    · unfold State.envAdvance; split <;> rfl
    · unfold State.envAdvance; split <;> simp_all
    · rw [hm] at h; cases h
    · unfold State.envAdvance; split <;> rfl
    · unfold State.envAdvance; split <;> exact h
    · unfold State.envAdvance; split <;> exact h

/-! Events. -/

theorem RunFrame.allocateIn (note velocity : Word) (l : List (Fin 8)) (k : Nat) (s : State) :
    RunFrame lo hi s (s.allocateIn note velocity k l) := by
  induction l generalizing k s with
  | nil => exact .refl _ _ _
  | cons v l ih =>
    unfold State.allocateIn
    split
    · exact .refl _ _ _
    · split
      · exact ih _ _
      · exact ((RunFrame.raiseOv s _).trans (.setVoice _ _ _)).trans (ih _ _)

theorem RunFrame.releaseVoice (note : Word) (s : State) (v : Fin 8) :
    RunFrame lo hi s (State.releaseVoice note s v) := by
  unfold State.releaseVoice
  split
  · exact .setVoice _ _ _
  · exact .refl _ _ _

theorem RunFrame.fire (s : State) (k : Fin 8) : RunFrame lo hi s (s.fire k) := by
  unfold State.fire
  split
  · exact .allocateIn _ _ _ _ _
  · exact .foldl (RunFrame.releaseVoice _) _ _
  · exact .refl _ _ _

@[simp] theorem State.allocateIn_events (note velocity : Word) (l : List (Fin 8)) (k : Nat) (s : State) :
    (s.allocateIn note velocity k l).events = s.events := by
  induction l generalizing k s with
  | nil => rfl
  | cons v l ih =>
    unfold State.allocateIn
    split
    · rfl
    · split
      · exact ih _ _
      · rw [ih]; rfl

theorem foldl_events {α : Type} {f : State → α → State} (h : ∀ s x, (f s x).events = s.events) (l : List α)
    (s : State) : (l.foldl f s).events = s.events := by
  induction l generalizing s with
  | nil => rfl
  | cons x l ih => exact (ih _).trans (h s x)

@[simp] theorem State.release_events (s : State) (note : Word) : (s.release note).events = s.events :=
  foldl_events (fun s v => by unfold State.releaseVoice; split <;> rfl) _ _

/-- Firing an event changes no event slot. -/
@[simp] theorem State.fire_events (s : State) (k : Fin 8) : (s.fire k).events = s.events := by
  unfold State.fire
  split
  · exact State.allocateIn_events _ _ _ _ _
  · exact State.release_events _ _
  · rfl

theorem event_of_events {s t : State} (h : t.events = s.events) (k : Fin 8) : t.event k = s.event k := by
  unfold State.event; simp [h]

theorem fireSlot_frame (ns : Nat × State) (k : Fin 8) : RunFrame lo hi ns.2 (fireSlot ns k).2 := by
  unfold fireSlot
  split
  · exact .refl _ _ _
  · split
    · exact (RunFrame.fire _ _).trans (.setEvent _ _ _)
    · exact .refl _ _ _

/-- What a scan of step 1 does: it fires and clears what is due, and bounds n by every other DELTA
(46_engine.md R254). -/
theorem fireSlots_spec (l : List (Fin 8)) (hl : l.Nodup) (n : Nat) (s : State) :
    RunFrame lo hi s (l.foldl fireSlot (n, s)).2 ∧
    (l.foldl fireSlot (n, s)).1 ≤ n ∧ (1 ≤ n → 1 ≤ (l.foldl fireSlot (n, s)).1) ∧
    ∀ k, (k ∉ l → (l.foldl fireSlot (n, s)).2.event k = s.event k) ∧
      (k ∈ l → (s.event k).kind ≠ .free → (s.event k).delta = 0 →
        (l.foldl fireSlot (n, s)).2.event k = Event.cleared) ∧
      (k ∈ l → (s.event k).kind ≠ .free → (s.event k).delta ≠ 0 →
        (l.foldl fireSlot (n, s)).2.event k = s.event k ∧
          (l.foldl fireSlot (n, s)).1 ≤ uint (s.event k).delta) ∧
      (k ∈ l → (s.event k).kind = .free → (l.foldl fireSlot (n, s)).2.event k = s.event k) := by
  induction l generalizing n s with
  | nil => exact ⟨.refl _ _ _, le_refl _, id, by simp⟩
  | cons j l ih =>
    obtain ⟨hj, hl'⟩ := List.nodup_cons.mp hl
    simp only [List.foldl_cons]
    obtain ⟨n', hn'⟩ : ∃ n', (fireSlot (n, s) j).1 = n' := ⟨_, rfl⟩
    obtain ⟨s', hs'⟩ : ∃ s', (fireSlot (n, s) j).2 = s' := ⟨_, rfl⟩
    have hp : fireSlot (n, s) j = (n', s') := by rw [← hn', ← hs']
    rw [hp]
    obtain ⟨i1, i2, i3, i4⟩ := ih hl' n' s'
    have f0 : RunFrame lo hi s s' := by rw [← hs']; exact fireSlot_frame (n, s) j
    -- what the head did
    have head : n' ≤ n ∧ (1 ≤ n → 1 ≤ n') ∧ (∀ k, k ≠ j → s'.event k = s.event k) ∧
        ((s.event j).kind ≠ .free → (s.event j).delta = 0 → s'.event j = Event.cleared) ∧
        ((s.event j).kind ≠ .free → (s.event j).delta ≠ 0 → s'.event j = s.event j ∧ n' ≤ uint (s.event j).delta) ∧
        ((s.event j).kind = .free → s'.event j = s.event j) := by
      rw [← hn', ← hs']
      unfold fireSlot
      split
      · next h => exact ⟨le_refl _, id, fun _ _ => rfl, fun h' => absurd h h', fun h' => absurd h h', fun _ => rfl⟩
      · next h =>
        split
        · next h0 =>
          refine ⟨le_refl _, id, fun k hk => ?_, fun _ _ => ?_, fun _ h' => absurd h0 h', fun h' => absurd h' h⟩
          · show ((s.fire j).setEvent j Event.cleared).event k = _
            rw [State.event_setEvent, if_neg hk]; exact event_of_events (State.fire_events s j) k
          · show ((s.fire j).setEvent j Event.cleared).event j = _
            rw [State.event_setEvent_same]
        · next h0 =>
          refine ⟨min_le_left _ _, fun h1 => ?_, fun _ _ => rfl, fun _ h' => absurd h' h0,
            fun _ _ => ⟨rfl, min_le_right _ _⟩, fun h' => absurd h' h⟩
          have : uint (s.event j).delta ≠ 0 := fun hc => h0 (BitVec.eq_of_toNat_eq (by simpa using hc))
          show 1 ≤ min n (uint (s.event j).delta)
          omega
    obtain ⟨a1, a2, a3, a4, a5, a6⟩ := head
    refine ⟨f0.trans i1, i2.trans a1, fun h => i3 (a2 h), fun k => ?_⟩
    by_cases hk : k = j
    · subst hk
      have e := (i4 k).1 hj
      refine ⟨fun h => absurd (List.mem_cons_self) h, fun _ h1 h2 => e.trans (a4 h1 h2), fun _ h1 h2 => ?_, fun _ h1 => e.trans (a6 h1)⟩
      exact ⟨e.trans (a5 h1 h2).1, i2.trans (a5 h1 h2).2⟩
    · obtain ⟨b1, b2, b3, b4⟩ := i4 k
      rw [a3 k hk] at b1 b2 b3 b4
      refine ⟨fun h => b1 (fun h' => h (List.mem_cons_of_mem _ h')), fun h => b2 ?_, fun h => b3 ?_, fun h => b4 ?_⟩ <;>
        exact (List.mem_cons.mp h).resolve_left hk

theorem slots_nodup : slots.Nodup := by decide

theorem mem_slots (k : Fin 8) : k ∈ slots := by revert k; decide

/-- Step 1 of a pass (46_engine.md R254). -/
theorem fireDue_spec (r : Nat) (s : State) :
    RunFrame lo hi s (s.fireDue r).2 ∧ (s.fireDue r).1 ≤ r ∧ (1 ≤ r → 1 ≤ (s.fireDue r).1) ∧
    ∀ k, ((s.event k).kind ≠ .free → (s.event k).delta = 0 → (s.fireDue r).2.event k = Event.cleared) ∧
      ((s.event k).kind ≠ .free → (s.event k).delta ≠ 0 →
        (s.fireDue r).2.event k = s.event k ∧ (s.fireDue r).1 ≤ uint (s.event k).delta) ∧
      ((s.event k).kind = .free → (s.fireDue r).2.event k = s.event k) := by
  obtain ⟨h1, h2, h3, h4⟩ := fireSlots_spec (lo := lo) (hi := hi) slots slots_nodup r s
  exact ⟨h1, h2, h3, fun k => ⟨(h4 k).2.1 (mem_slots k), (h4 k).2.2.1 (mem_slots k), (h4 k).2.2.2 (mem_slots k)⟩⟩

/-! Rendering. -/

theorem RunFrame.accumulate (s : State) {a : Nat} (x : Word) (h1 : lo ≤ a) (h2 : a < hi) :
    RunFrame lo hi s (s.accumulate a x) := by
  unfold State.accumulate
  exact (RunFrame.raiseOv s _).trans (.bufWrite _ _ h1 h2)

theorem RunFrame.afterEnvValue (s : State) (v : Fin 8) : RunFrame lo hi s (s.afterEnvValue v) := by
  unfold State.afterEnvValue
  exact .raiseOv _ _

theorem renderOn_frame (s : State) {a : Nat} (v : Fin 8) (h1 : lo ≤ a) (h2 : a < hi) :
    RunFrame lo hi s (s.renderOn a v) := by
  unfold State.renderOn
  dsimp only
  generalize hs1 : s.setVoice v (s.voice v).getNote = s1
  have f1 : RunFrame lo hi s s1 := hs1 ▸ .setVoice s v _
  have f2 := f1.trans (.afterEnvValue s1 v)
  generalize s1.afterEnvValue v = s2 at f2 ⊢
  generalize voiceRender s.cfg (s2.renderView v (s1.envValue v)) = out
  have f3 := f2.trans (.accumulate s2 out.sample h1 h2)
  generalize s2.accumulate a out.sample = s3 at f3 ⊢
  have f4 : RunFrame lo hi s (s3.storePhases v out) := f3.trans (.setVoice s3 v _)
  exact f4.trans (.envAdvance _ v)

theorem renderVoice_frame (s : State) {a : Nat} (v : Fin 8) (h1 : lo ≤ a) (h2 : a < hi) :
    RunFrame lo hi s (State.renderVoice a s v) := by
  unfold State.renderVoice
  split
  · exact renderOn_frame s v h1 h2
  · exact .refl _ _ _

theorem renderSample_frame (s : State) {a : Nat} (h1 : lo ≤ a) (h2 : a < hi) :
    RunFrame lo hi s (s.renderSample a) := by
  unfold State.renderSample
  exact .foldl (f := State.renderVoice a) (fun s v => renderVoice_frame s v h1 h2) slots s

theorem render_frame (s : State) (start n : Nat) (h1 : lo ≤ start) (h2 : start + n ≤ hi) :
    RunFrame lo hi s (s.render start n) := by
  induction n generalizing s start with
  | zero => exact .refl _ _ _
  | succ n ih =>
    rw [State.render]
    exact (renderSample_frame s h1 (by omega)).trans (ih _ _ (by omega) (by omega))

@[simp] theorem State.envAdvance_events (s : State) (e : Fin 8) : (s.envAdvance e).events = s.events := by
  unfold State.envAdvance; split <;> rfl

theorem State.renderVoice_events (a : Nat) (s : State) (v : Fin 8) :
    (State.renderVoice a s v).events = s.events := by
  unfold State.renderVoice
  split
  · rw [State.renderOn, State.envAdvance_events]; rfl
  · rfl

/-- Rendering changes no event slot. -/
@[simp] theorem State.render_events (s : State) (start n : Nat) : (s.render start n).events = s.events := by
  induction n generalizing s start with
  | zero => rfl
  | succ n ih =>
    rw [State.render, ih, State.renderSample]
    exact foldl_events (f := State.renderVoice start) (State.renderVoice_events start) _ _

/-! Step 5. -/

theorem elapseSlot_frame (n : Nat) (s : State) (k : Fin 8) : RunFrame lo hi s (State.elapseSlot n s k) := by
  unfold State.elapseSlot
  split
  · exact .refl _ _ _
  · exact .setEvent _ _ _

theorem elapse_frame (s : State) (n : Nat) : RunFrame lo hi s (s.elapse n) :=
  .foldl (elapseSlot_frame n) _ _

theorem elapseSlots_event (n : Nat) (l : List (Fin 8)) (hl : l.Nodup) (s : State) (k : Fin 8) :
    (l.foldl (State.elapseSlot n) s).event k =
      if k ∈ l ∧ (s.event k).kind ≠ .free then
        { s.event k with delta := (s.event k).delta - BitVec.ofNat 32 n }
      else s.event k := by
  induction l generalizing s with
  | nil => simp
  | cons j l ih =>
    obtain ⟨hj, hl'⟩ := List.nodup_cons.mp hl
    rw [List.foldl_cons, ih hl']
    have hd : (State.elapseSlot n s j).event k =
        if k = j ∧ (s.event k).kind ≠ .free then
          { s.event k with delta := (s.event k).delta - BitVec.ofNat 32 n } else s.event k := by
      unfold State.elapseSlot
      split
      · next h =>
        split
        · next h' => exact absurd (h'.1 ▸ h) h'.2
        · rfl
      · next h =>
        rw [State.event_setEvent]
        by_cases hk : k = j
        · subst hk; simp [h]
        · simp [hk]
    rw [hd]
    by_cases hk : k = j
    · subst hk
      simp [hj]
    · simp [hk]

/-- Step 5 of a pass (46_engine.md R254). -/
theorem elapse_event (s : State) (n : Nat) (k : Fin 8) :
    (s.elapse n).event k =
      if (s.event k).kind ≠ .free then { s.event k with delta := (s.event k).delta - BitVec.ofNat 32 n }
      else s.event k := by
  rw [State.elapse, elapseSlots_event n slots slots_nodup]
  simp [mem_slots k]

/-! The loop. -/

/-- What the passes of RUN can change (46_engine.md R261). -/
theorem runPasses_frame (fuel start r pos : Nat) (s : State) (h1 : lo ≤ start) (h2 : start + r ≤ hi) :
    RunFrame lo hi s (runPasses fuel start r pos s).2 := by
  induction fuel generalizing start r pos s with
  | zero => exact .refl _ _ _
  | succ fuel ih =>
    unfold runPasses
    split
    · exact .refl _ _ _
    · obtain ⟨f1, f2, f3, _⟩ := fireDue_spec (lo := lo) (hi := hi) r s
      exact ((f1.trans (render_frame _ _ _ h1 (by omega))).trans (elapse_frame _ _)).trans
        (ih _ _ _ _ (by omega) (by omega))

/-! With nothing queued. -/

theorem State.fireDue_free {s : State} (r : Nat) (h : ∀ k, (s.event k).kind = .free) : s.fireDue r = (r, s) := by
  unfold State.fireDue
  generalize slots = l
  induction l with
  | nil => rfl
  | cons k l ih => rw [List.foldl_cons, fireSlot, if_pos (h k)]; exact ih

theorem State.elapse_free {s : State} (n : Nat) (h : ∀ k, (s.event k).kind = .free) : s.elapse n = s := by
  unfold State.elapse
  generalize slots = l
  induction l with
  | nil => rfl
  | cons k l ih => rw [List.foldl_cons, State.elapseSlot, if_pos (h k)]; exact ih

/-- With no event queued one pass renders the whole block (46_engine.md R254). -/
theorem runPasses_free {fuel start r pos : Nat} {s : State} (h : ∀ k, (s.event k).kind = .free) (h0 : r ≠ 0)
    (hf : r ≤ fuel) :
    runPasses fuel start r pos s = ((pos + songAdvance s.cfg r) % 2 ^ 32, s.render start r) := by
  cases fuel with
  | zero => omega
  | succ fuel =>
    unfold runPasses
    rw [if_neg h0, State.fireDue_free r h]
    dsimp only
    rw [Nat.sub_self, State.elapse_free _ fun k => by rw [event_of_events (State.render_events s _ _)]; exact h k]
    cases fuel <;> simp [runPasses]

/-- Voices that are off render nothing (46_engine.md R262). -/
theorem foldl_renderVoice_off (a : Nat) (s : State) (l : List (Fin 8)) (h : ∀ v ∈ l, (s.voice v).isOn = false) :
    l.foldl (State.renderVoice a) s = s := by
  induction l with
  | nil => rfl
  | cons k l ih =>
    rw [List.foldl_cons, State.renderVoice, if_neg (by simp [h k])]
    exact ih fun v hv => h v (by simp [hv])

end Sys2Proof.Machine
end

