-- ==== Sys2Proof/Laws/Space.lean ====
section
/-! SUPPORT. The state space: each of its words has one address, and what a write to one leaves unchanged. -/

namespace Sys2Proof.Machine

open Sys2Proof

/-- The offset of a knob (10_state.md R28). -/
def knobAddr : Knob → Nat
  | .unisono => 0x008
  | .detuneSpread => 0x009
  | .panSpread => 0x00A
  | .vibRate => 0x00B
  | .vibAmount => 0x00C
  | .rise => 0x00D
  | .slideTime => 0x00E

/-- The offset of a word in its event slot (10_state.md R30). -/
def EventField.offset : EventField → Nat
  | .kind => 0
  | .delta => 1
  | .note => 2
  | .velocity => 3

/-- The offset of a word in its voice (10_state.md R31). -/
def VoiceField.offset : VoiceField → Nat
  | .isOn => 0
  | .note => 1
  | .detune => 2
  | .pan => 3
  | .vibPhase => 4
  | .slideTime => 5
  | .slideActive => 6
  | .slideDelta => 7
  | .slideRemaining => 8
  | .destNote => 9
  | .currentNote => 10
  | .oscPhase => 11

/-- The offset of a word in its envelope (10_state.md R32). -/
def EnvField.offset : EnvField → Nat
  | .stage => 0
  | .position => 1
  | .attackRate => 2
  | .decayRate => 3
  | .sustain => 4
  | .releaseRate => 5
  | .releaseValue => 6

/-- The address of a state word (20_memory.md R64). -/
def locAddr : StateLoc → Nat
  | .status => 0x000
  | .faultcmd => 0x001
  | .devid => 0x002
  | .config => 0x003
  | .seed => 0x004
  | .knob k => knobAddr k
  | .activeNote i => 0x010 + i.val
  | .noteCount => 0x014
  | .event k f => 0x020 + 4 * k.val + f.offset
  | .voice v f => 0x040 + 16 * v.val + f.offset
  | .env e f => 0x0C0 + 8 * e.val + f.offset

/-- Decode an address below 0x100, and the word that it names has that address. -/
theorem locAt_small : ∀ n : Fin 256, (locAt n.val).all (fun l => locAddr l = n.val) = true := by
  decide +kernel

theorem locAt_lt {n : Nat} {l : StateLoc} (h : locAt n = some l) : n < 256 := by
  by_contra hn
  have : ¬n < 32 ∧ ¬n < 64 ∧ ¬n < 192 ∧ ¬n < 256 := by omega
  simp [locAt, this] at h

/-- A state word has one address. -/
theorem stateLoc_addr {a : Int} {l : StateLoc} (h : stateLoc a = some l) : a = locAddr l := by
  unfold stateLoc at h
  split at h
  · next h0 =>
    have hk := locAt_small ⟨a.toNat, locAt_lt h⟩
    rw [h] at hk
    simp at hk
    omega
  · cases h

theorem stateLoc_inj {a b : Int} {l : StateLoc} (h : stateLoc a = some l) (h' : stateLoc b = some l) : a = b := by
  rw [stateLoc_addr h, stateLoc_addr h']

theorem writeState_loc {s t : State} {a : Int} {w : Word} (h : s.writeState a w = .ok t) :
    ∃ l, stateLoc a = some l ∧ s.writeLoc l w = .ok t := by
  unfold State.writeState at h
  split at h
  · next l hl => exact ⟨l, hl, h⟩
  · cases h

/-- What a write to a state word leaves unchanged, whichever word it is. -/
theorem writeLoc_frame {s t : State} {l : StateLoc} {w : Word} (h : s.writeLoc l w = .ok t) :
    t.regs = s.regs ∧ t.buf = s.buf ∧ t.bufEpoch = s.bufEpoch ∧ t.cfg = s.cfg ∧ t.mode = s.mode ∧
    t.host = s.host ∧ t.busReply = s.busReply ∧ t.busDraws = s.busDraws ∧ t.fcause = s.fcause ∧
    t.faultcmd = s.faultcmd ∧ t.ecode = s.ecode ∧ (t.err = true → s.err = true) ∧
    (uint s.noteCount ≤ 4 → uint t.noteCount ≤ 4) := by
  cases l <;> simp only [State.writeLoc] at h
  all_goals first
    | (cases h; done)
    | (cases h; simp [State.writeStatus]; done)
    | (cases h; simp [State.writeStatus]; tauto)
    | (split at h <;> cases h; simp [*])
    | (unfold orBadValue at h; split at h <;> cases h; simp [State.setEvent, State.setVoice, State.setEnv])

theorem bufLoc_eq {c : Config} {x : Int} {a : Nat} : bufLoc c x = some a ↔ x = a ∧ a < c.bufWords := by
  unfold bufLoc
  split
  · simp; omega
  · simp; omega

end Sys2Proof.Machine
end

