-- ==== Sys2Proof/Laws/Exec.lean ====
section
/-! SUPPORT. What each command can do, said once: the shapes of its next state. -/

namespace Sys2Proof.Machine

open Sys2Proof

/-- The next states that a command can reach from `s`. -/
inductive Effect (i : Instr) (s : State) : State → Prop
  /-- Nothing changes: NOP, EADV with nothing to advance, NOTEON and NOTEOFF on a full queue. -/
  | same (h : i.causes = []) : Effect i s s
  | fault (c : Cause) (h : causeCode c ∈ i.causes) : Effect i s (faultOf i c s)
  /-- VON on a quad that passes r15, which no word decodes to (log 15). -/
  | quad (rs1 : Reg) (vi : VoiceIdx) (h : i = .von rs1 vi) (h' : quadFits rs1 = false) :
      Effect i s (faultOf i .illegal s)
  | reg (rd : Reg) (w : Word) (h : i.dest = some rd) : Effect i s (s.setReg rd w)
  | regOv (rd : Reg) (b : Bool) (w : Word) (h : i.dest = some rd) (h' : i.mayOverflow = true) :
      Effect i s ((s.raiseOv b).setReg rd w)
  | rand (rd : Reg) (v w : Word) (h : i = .rand rd) : Effect i s ({ s with seed := v }.setReg rd w)
  | rseed (rs1 : Reg) (h : i = .rseed rs1) : Effect i s { s with seed := s.reg rs1 }
  | etrig (vi : VoiceIdx) (h : i = .etrig vi) (e : Fin 8) (x : Envelope) : Effect i s (s.setEnv e x)
  | eoff (vi : VoiceIdx) (h : i = .eoff vi) (b : Bool) (e : Fin 8) (x : Envelope) :
      Effect i s ((s.raiseOv b).setEnv e x)
  | eadv (vi : VoiceIdx) (h : i = .eadv vi) (h' : s.cfg.envAdvance = .step) (b : Bool) (e : Fin 8)
      (x : Envelope) : Effect i s ((s.raiseOv b).setEnv e x)
  | voice (h : (∃ rs1 vi, i = .von rs1 vi) ∨ (∃ vi, i = .voff vi) ∨ (∃ rs1 vi, i = .vslide rs1 vi) ∨
      ∃ rs1 vi, i = .vphadv rs1 vi) (v : Fin 8) (x : Voice) : Effect i s (s.setVoice v x)
  | vgetn (rd : Reg) (vi : VoiceIdx) (h : i = .vgetn rd vi) (v : Fin 8) (x : Voice) (w : Word) :
      Effect i s ((s.setVoice v x).setReg rd w)
  | event (h : (∃ rs1 rs2 rs3, i = .noteon rs1 rs2 rs3) ∨ ∃ rs1 rs2, i = .noteoff rs1 rs2) (k : Fin 8)
      (x : Event) : Effect i s (s.setEvent k x)
  | anoff (h : i = .anoff) (vs : Vector Voice 8) (es : Vector Event 8) :
      Effect i s { s with voices := vs, events := es, activeNotes := Vector.replicate 4 0, noteCount := 0 }
  | deviceError (rd rs1 rs2 : Reg) (h : i = .run rd rs1 rs2) (code : BitVec 4) (h' : code = 1 ∨ code = 2) :
      Effect i s (deviceError code s)
  | run (rd rs1 rs2 : Reg) (h : i = .run rd rs1 rs2) (base len : Nat) (h' : base + len ≤ s.cfg.bufWords)
      (u : State) (hu : RunFrame base (base + len) s u) (w : Word) : Effect i s (u.setReg rd w)
  | sts (rd rs1 : Reg) (imm : BitVec 16) (h : i = .sts rd rs1 imm) (l : StateLoc) (t : State)
      (ht : s.writeLoc l (s.reg rd) = .ok t) : Effect i s t
  | stb (rd rs1 : Reg) (imm : BitVec 16) (h : i = .stb rd rs1 imm) (a : Nat) (ha : a < s.cfg.bufWords)
      (w : Word) : Effect i s (s.bufWrite a w)

theorem enqueueIn_cases (s : State) (e : Event) (l : List (Fin 8)) :
    s.enqueueIn e l = s ∨ ∃ k, s.enqueueIn e l = s.setEvent k e := by
  induction l with
  | nil => exact .inl rfl
  | cons k l ih =>
    unfold State.enqueueIn
    split
    · exact .inr ⟨k, rfl⟩
    · exact ih

theorem envAdvance_cases (s : State) (e : Fin 8) :
    s.envAdvance e = s ∨ (s.cfg.envAdvance = .step ∧ ∃ b x, s.envAdvance e = (s.raiseOv b).setEnv e x) := by
  unfold State.envAdvance
  split
  · next hm _ => exact .inr ⟨hm, _, _, rfl⟩
  · exact .inl rfl

theorem foldl_silence (s : State) (l : List (Fin 8)) :
    ∃ vs, l.foldl State.silence s = { s with voices := vs } := by
  induction l generalizing s with
  | nil => exact ⟨s.voices, rfl⟩
  | cons v l ih => obtain ⟨vs, h⟩ := ih (s.silence v); exact ⟨vs, h⟩

theorem foldl_clearEvent (s : State) (l : List (Fin 8)) :
    ∃ es, l.foldl State.clearEvent s = { s with events := es } := by
  induction l generalizing s with
  | nil => exact ⟨s.events, rfl⟩
  | cons v l ih => obtain ⟨es, h⟩ := ih (s.clearEvent v); exact ⟨es, h⟩

theorem setApply_effect {i : Instr} {s : State} {rd : Reg} (m : Ovf) (z : Int) (h : i.dest = some rd)
    (h' : i.mayOverflow = true) : Effect i s (s.setApply rd m z) := .regOv _ _ _ h h'

theorem setResult_effect {i : Instr} {s : State} {rd : Reg} (z : Int) (h : i.dest = some rd) :
    Effect i s (s.setResult rd z) := .reg _ _ h

theorem von_effect (s : State) (rs1 : Reg) (vi : VoiceIdx) :
    ∃ t, exec (.von rs1 vi) s = .next t ∧ Effect (.von rs1 vi) s t := by
  refine ⟨_, rfl, ?_⟩
  split
  · exact .voice (.inl ⟨_, _, rfl⟩) _ _
  · next h => exact .quad rs1 vi rfl (by simpa using h)

theorem queue_effect (i : Instr) (s : State) (e : Event)
    (h : (∃ rs1 rs2 rs3, i = .noteon rs1 rs2 rs3) ∨ ∃ rs1 rs2, i = .noteoff rs1 rs2) :
    Effect i s (s.enqueue e) := by
  rcases enqueueIn_cases s e slots with h1 | ⟨k, h1⟩
  · rw [State.enqueue, h1]
    refine .same ?_
    rcases h with ⟨_, _, _, rfl⟩ | ⟨_, _, rfl⟩ <;> rfl
  · rw [State.enqueue, h1]; exact .event h k e

theorem eadv_effect (s : State) (vi : VoiceIdx) : Effect (.eadv vi) s (s.envAdvance (slotOf vi)) := by
  rcases envAdvance_cases s (slotOf vi) with h | ⟨h, b, x, h1⟩
  · rw [h]; exact .same rfl
  · rw [h1]; exact .eadv vi rfl h b _ x

theorem anoff_effect (s : State) : ∃ t, exec .anoff s = .next t ∧ Effect .anoff s t := by
  refine ⟨_, rfl, ?_⟩
  obtain ⟨vs, h1⟩ := foldl_silence s slots
  obtain ⟨es, h2⟩ := foldl_clearEvent
    { slots.foldl State.silence s with activeNotes := Vector.replicate 4 0, noteCount := 0 } slots
  rw [h2, h1]
  exact .anoff rfl vs es

theorem run_effect (s : State) (rd rs1 rs2 : Reg) :
    ∃ t, exec (.run rd rs1 rs2) s = .next t ∧ Effect (.run rd rs1 rs2) s t := by
  refine ⟨_, rfl, ?_⟩
  split
  · exact .deviceError rd rs1 rs2 rfl 1 (.inl rfl)
  · split
    · exact .deviceError rd rs1 rs2 rfl 2 (.inr rfl)
    · exact .run rd rs1 rs2 rfl _ _ (by omega) _
        (runPasses_frame _ _ _ _ _ (le_refl _) (le_refl _)) _

theorem sts_effect (s : State) (rd rs1 : Reg) (imm : BitVec 16) :
    ∃ t, exec (.sts rd rs1 imm) s = .next t ∧ Effect (.sts rd rs1 imm) s t := by
  refine ⟨_, rfl, ?_⟩
  cases h : s.writeState (s.effAddr rs1 imm) (s.reg rd) with
  | ok t =>
    unfold State.writeState at h
    split at h
    · exact .sts rd rs1 imm rfl _ _ h
    · cases h
  | error c =>
    refine .fault c ?_
    have : c = .badAddr ∨ c = .badValue := by
      unfold State.writeState at h
      split at h
      · next l _ =>
        cases l <;> simp only [State.writeLoc] at h <;> first
          | cases h; done
          | (cases h; simp)
          | (split at h <;> cases h; simp)
          | (unfold orBadValue at h; split at h <;> cases h; simp)
      · cases h; simp
    rcases this with rfl | rfl <;> simp [Instr.causes, causeCode]

theorem stb_effect (s : State) (rd rs1 : Reg) (imm : BitVec 16) :
    ∃ t, exec (.stb rd rs1 imm) s = .next t ∧ Effect (.stb rd rs1 imm) s t := by
  refine ⟨_, rfl, ?_⟩
  cases h : bufLoc s.cfg (s.effAddr rs1 imm) with
  | some a => exact .stb rd rs1 imm rfl a (bufLoc_eq.mp h).2 _
  | none => exact .fault .badAddr (by simp [Instr.causes, causeCode])

theorem descLen_eq (w : Word) : descLen w = uint w / 65536 := by
  have := w.isLt
  simp [descLen, uint, BitVec.extractLsb'_toNat, Nat.shiftRight_eq_div_pow]; omega

theorem descBase_eq (w : Word) : descBase w = uint w % 65536 := by
  simp [descBase, uint, BitVec.extractLsb'_toNat]

/-- RUN with its descriptor taken apart (46_engine.md R253). -/
theorem exec_run {s : State} {rd rs1 rs2 : Reg} {len base : Nat} (hl : len = s.ux rs2 / 65536)
    (hb : base = s.ux rs2 % 65536) :
    exec (.run rd rs1 rs2) s = .next (if len = 0 then deviceError 1 s
      else if s.cfg.bufWords < base + len then deviceError 2 s
      else (runPasses len base len (s.ux rs1) s).2.setReg rd
        (BitVec.ofNat 32 (runPasses len base len (s.ux rs1) s).1)) := by
  have e1 : descLen (s.reg rs2) = len := by rw [descLen_eq, hl]; rfl
  have e2 : descBase (s.reg rs2) = base := by rw [descBase_eq, hb]; rfl
  rw [← e1, ← e2]; rfl

/-- Every command answers a next state, of one of the shapes of `Effect`. -/
theorem exec_effect (i : Instr) (s : State) : ∃ t, exec i s = .next t ∧ Effect i s t := by
  cases i
  case nop => exact ⟨s, rfl, .same rfl⟩
  case von => exact von_effect _ _ _
  case sts => exact sts_effect _ _ _ _
  case stb => exact stb_effect _ _ _ _
  case run => exact run_effect _ _ _ _
  case anoff => exact anoff_effect _
  case noteon => exact ⟨_, rfl, queue_effect _ _ _ (.inl ⟨_, _, _, rfl⟩)⟩
  case noteoff => exact ⟨_, rfl, queue_effect _ _ _ (.inr ⟨_, _, rfl⟩)⟩
  case eadv => exact ⟨_, rfl, eadv_effect _ _⟩
  case etrig vi => exact ⟨_, rfl, .etrig vi rfl _ _⟩
  case eoff vi => exact ⟨_, rfl, .eoff vi rfl _ _ _⟩
  case voff => exact ⟨_, rfl, .voice (.inr (.inl ⟨_, rfl⟩)) _ _⟩
  case vslide => exact ⟨_, rfl, .voice (.inr (.inr (.inl ⟨_, _, rfl⟩))) _ _⟩
  case vphadv => exact ⟨_, rfl, .voice (.inr (.inr (.inr ⟨_, _, rfl⟩))) _ _⟩
  case vgetn rd vi => exact ⟨_, rfl, .vgetn rd vi rfl _ _ _⟩
  case eval rd vi => exact ⟨_, rfl, .regOv rd _ _ rfl rfl⟩
  case rand rd => exact ⟨_, rfl, .rand rd _ _ rfl⟩
  case rseed rs1 => exact ⟨_, rfl, .rseed rs1 rfl⟩
  all_goals refine ⟨_, rfl, ?_⟩
  all_goals first
    | exact setApply_effect _ _ rfl rfl
    | exact setResult_effect _ rfl
    | exact .reg _ _ rfl
    | (split <;> first
        | exact setApply_effect _ _ rfl rfl
        | exact setResult_effect _ rfl
        | exact .reg _ _ rfl
        | exact .regOv _ _ _ rfl rfl
        | exact .fault _ (by simp [Instr.causes, causeCode]))

/-- Inversion of `exec`. -/
theorem Effect.of_exec {i : Instr} {s t : State} (h : exec i s = .next t) : Effect i s t := by
  obtain ⟨u, hu, he⟩ := exec_effect i s
  rw [hu] at h
  cases h
  exact he

end Sys2Proof.Machine
end

