-- ==== Sys2Proof/Laws/Loop.lean ====
section
/-! SUPPORT. Each part of RUN meets its description in Safety.lean: rendering, firing, counting down, the loop. -/

namespace Sys2Proof.Machine

open Sys2Proof

theorem slots_eq : slots = List.finRange 8 := by decide

/-- A fold whose function meets a description runs that description over the list. -/
theorem InTurn.foldl {α σ : Type} {r : α → σ → σ → Prop} {f : σ → α → σ} (h : ∀ s x, r x s (f s x)) (l : List α)
    (s : σ) : InTurn r l s (l.foldl f s) := by
  induction l generalizing s with
  | nil => rfl
  | cons x l ih => exact ⟨_, h s x, ih _⟩

/-! Rendering (46_engine.md R262). -/

/-- GETNOTE writes the note, the slide flag and the countdown alone (45_voice.md R232). -/
theorem Voice.getNote_eq (v : Voice) :
    v.getNote = { v with currentNote := v.getNote.currentNote, note := v.getNote.note,
                         slideActive := v.getNote.slideActive, slideRemaining := v.getNote.slideRemaining } := by
  unfold Voice.getNote
  split
  · split <;> rfl
  · rfl

theorem Voice.getNote_isOn (v : Voice) : v.getNote.isOn = v.isOn := by rw [Voice.getNote_eq]

theorem renderVoice_rendered (a : Nat) (s : State) (v : Fin 8) : VoiceRendered a v s (State.renderVoice a s v) := by
  refine ⟨fun h => by simp [State.renderVoice, h], fun h => ?_⟩
  rw [State.renderVoice, if_pos h, State.renderOn]
  dsimp only
  have sl : slotOf (BitVec.ofFin v) = v := rfl
  generalize hs1 : s.setVoice v (s.voice v).getNote = s1
  have v1 : s1.voice v = (s.voice v).getNote := by rw [← hs1]; simp
  have e1 : s1.envValue v = s.envValue v := by rw [← hs1]; rfl
  have view : (s1.afterEnvValue v).renderView v (s1.envValue v) =
      { voice := BitVec.ofNat 32 v.val, currentNote := (s.voice v).getNote.currentNote, detune := (s.voice v).detune,
        pan := (s.voice v).pan, vibPhase := (s.voice v).vibPhase, oscPhase := (s.voice v).oscPhase,
        envValue := s.envValue v, vibRate := s.knobs.vibRate, vibAmount := s.knobs.vibAmount } := by
    have : (s1.afterEnvValue v).voice v = (s.voice v).getNote := v1
    unfold State.renderView
    rw [this, e1, Voice.getNote_eq, ← hs1]
    rfl
  rw [view]
  generalize ho : voiceRender s.cfg _ = out
  have note : ((s.setVoice v (s.voice v).getNote).setReg 0 (s.voice v).getNote.currentNote).voice v =
      (s.voice v).getNote := by show (s.setVoice v _).voice v = _; simp
  have read : (s1.afterEnvValue v).bufRead a = s.bufRead a := by rw [← hs1]; rfl
  have sum : (((s1.afterEnvValue v).accumulate a out.sample).storePhases v out).bufRead a =
      applyWord .sat (sint (s.bufRead a) + sint out.sample) := by
    show ((s1.afterEnvValue v).accumulate a out.sample).bufRead a = _
    rw [State.accumulate, State.bufRead_bufWrite_same, read]
  refine ⟨_, _, ((s1.afterEnvValue v).accumulate a out.sample).storePhases v out, out, rfl, rfl, ?_, ?_, ?_, ?_, ?_,
    fun b hb => ?_, ?_, rfl⟩
  · rw [sl, note, State.reg_setReg_same, ← ho]
  · rw [← hs1]; rfl
  · have v3 : ((s1.afterEnvValue v).accumulate a out.sample).voice v = (s.voice v).getNote := v1
    rw [sl, note, State.storePhases, State.voice_setVoice_same, v3]
  · intro k hk
    rw [State.storePhases, State.voice_setVoice, if_neg hk]
    show s1.voice k = _
    rw [← hs1, State.voice_setVoice, if_neg hk]
  · rw [sum, sint_applyWord]; exact reduced_applyVal _ _
  · show ((s1.afterEnvValue v).accumulate a out.sample).bufRead b = _
    rw [State.accumulate, State.bufRead_bufWrite_ne _ _ hb, ← hs1]; rfl
  · rw [sum, sint_applyWord]
    have ov : (((s1.afterEnvValue v).accumulate a out.sample).storePhases v out).ov =
        ((s.afterEnvValue v).ov || overflows .sat (sint (s.bufRead a) + sint out.sample)) := by
      show ((s1.afterEnvValue v).ov || overflows .sat (sint ((s1.afterEnvValue v).bufRead a) + sint out.sample)) = _
      rw [read, ← hs1]; rfl
    rw [ov]
    show _ ↔ (s.afterEnvValue v).ov = true ∨ _
    simp [overflows]

/-- RENDER, sample by sample. -/
theorem render_rendered (s : State) (start n : Nat) : BlockRendered start n s (s.render start n) := by
  induction n generalizing s start with
  | zero => rfl
  | succ n ih =>
    have h := InTurn.foldl (f := State.renderVoice start) (renderVoice_rendered start) slots s
    rw [BlockRendered, List.range'_succ, State.render]
    rw [slots_eq] at h
    refine ⟨s.renderSample start, ?_, ih (s.renderSample start) (start + 1)⟩
    rw [State.renderSample, slots_eq]
    exact h

/-! Events (46_engine.md R254, R255, R259). -/

theorem fireSlot_scanned (p : Nat × State) (k : Fin 8) : SlotScanned k p (fireSlot p k) := by
  have zero : (p.2.event k).delta = 0 ↔ uint (p.2.event k).delta = 0 :=
    ⟨fun h => by rw [h]; rfl, fun h => BitVec.eq_of_toNat_eq (by simpa using h)⟩
  refine ⟨fun h => by rw [fireSlot, if_pos h], fun h h0 => ?_, fun h h0 => by
    rw [fireSlot, if_neg h, if_neg (mt zero.mp h0)]⟩
  rw [fireSlot, if_neg h, if_pos (zero.mpr h0)]
  refine ⟨rfl, p.2.fire k, fun hk => by rw [State.fire, hk], fun hk => by rw [State.fire, hk], rfl, ?_, fun j hj => ?_⟩
  · show ((p.2.fire k).setEvent k _).event k = _
    rw [State.event_setEvent_same]; rfl
  · show ((p.2.fire k).setEvent k _).event j = _
    rw [State.event_setEvent, if_neg hj]
    exact event_of_events (State.fire_events _ _) j

/-- A smaller bound on the samples to the next event is a bound on the result, and fires the same events. -/
theorem fireSlots_min (l : List (Fin 8)) (a b : Nat) (s : State) :
    l.foldl fireSlot (min a b, s) = (min a (l.foldl fireSlot (b, s)).1, (l.foldl fireSlot (b, s)).2) := by
  induction l generalizing b s with
  | nil => rfl
  | cons k l ih =>
    rw [List.foldl_cons, List.foldl_cons]
    have : fireSlot (min a b, s) k = (min a (fireSlot (b, s) k).1, (fireSlot (b, s) k).2) := by
      unfold fireSlot
      split
      · rfl
      · split
        · rfl
        · simp [Nat.min_assoc]
    rw [this, ih]

/-- The samples to the next event are the same for every block that reaches it. -/
theorem fireDue_min {s : State} {a b : Nat} (h : (s.fireDue b).1 ≤ a) (hab : a ≤ b) : s.fireDue a = s.fireDue b := by
  have := fireSlots_min slots a b s
  rw [Nat.min_eq_left hab] at this
  refine this.trans ?_
  unfold State.fireDue at h ⊢
  rw [Nat.min_eq_right h]

theorem elapse_rest (s : State) (n : Nat) : ∃ es, s.elapse n = { s with events := es } := by
  unfold State.elapse
  generalize slots = l
  induction l generalizing s with
  | nil => exact ⟨s.events, rfl⟩
  | cons k l ih =>
    obtain ⟨es, h⟩ := ih (State.elapseSlot n s k)
    refine ⟨es, h.trans ?_⟩
    unfold State.elapseSlot
    split <;> rfl

/-- Step 5 where no pending event is due within the pass. -/
theorem elapse_elapsed {s : State} {n : Nat} (h : ∀ k, (s.event k).kind ≠ .free → n ≤ uint (s.event k).delta) :
    EventsElapsed n s (s.elapse n) := by
  obtain ⟨es, he⟩ := elapse_rest s n
  refine ⟨by rw [he], fun k => ?_⟩
  rw [elapse_event]
  refine ⟨fun hk => if_neg (by simp [hk]), fun hk => ⟨_, ?_, if_pos hk⟩⟩
  have := h k hk
  have := (s.event k).delta.isLt
  rw [uint, BitVec.toNat_sub_of_le]
  · simp only [uint] at *; simp; omega
  · rw [BitVec.le_def]; simp only [uint] at *; simp; omega

/-- One pass leaves every event that is still pending at least n samples away. -/
theorem fireDue_pending (r : Nat) (s : State) (k : Fin 8) (h : ((s.fireDue r).2.event k).kind ≠ .free) :
    (s.fireDue r).2.event k = s.event k ∧ (s.fireDue r).1 ≤ uint (s.event k).delta := by
  obtain ⟨-, -, -, c⟩ := fireDue_spec (lo := 0) (hi := 0) r s
  obtain ⟨c1, c2, c3⟩ := c k
  by_cases hk : (s.event k).kind = .free
  · rw [c3 hk] at h; exact absurd hk h
  · by_cases h0 : (s.event k).delta = 0
    · rw [c1 hk h0] at h; exact absurd rfl h
    · exact c2 hk h0

/-- Steps 1 to 5 of one pass, for a block of any length that reaches the next event. -/
theorem RunLoop.ofPass {start left r pos pos' n : Nat} {s u t : State} (hd : s.fireDue r = (n, u)) (h0 : r ≠ 0)
    (hn : n ≤ left) (hr : left ≤ r)
    (rest : RunLoop (start + n) (left - n) ((pos + songAdvance s.cfg n) % 2 ^ 32) ((u.render start n).elapse n) pos' t) :
    RunLoop start left pos s pos' t := by
  obtain ⟨-, -, f3, -⟩ := fireDue_spec (lo := 0) (hi := 0) r s
  have pend := fireDue_pending r s
  have scan := InTurn.foldl (r := SlotScanned) (f := fireSlot) fireSlot_scanned slots (left, s)
  have e : slots.foldl fireSlot (left, s) = s.fireDue r := fireDue_min (by rw [hd]; exact hn) hr
  rw [e, hd, slots_eq] at scan
  rw [hd] at f3 pend
  refine .pass scan (f3 (by omega)) hn (render_rendered u start n) (elapse_elapsed fun k hk => ?_) rest
  rw [event_of_events (State.render_events u start n)] at hk ⊢
  obtain ⟨h1, h2⟩ := pend k hk
  rw [h1]
  exact h2

/-- RUN's passes are the loop of R254. -/
theorem runPasses_loop (fuel start r pos : Nat) (s : State) (hf : r ≤ fuel) :
    RunLoop start r pos s (runPasses fuel start r pos s).1 (runPasses fuel start r pos s).2 := by
  induction fuel generalizing start r pos s with
  | zero => obtain rfl : r = 0 := by omega
            exact .done _ _ _
  | succ fuel ih =>
    unfold runPasses
    split
    · next h => subst h; exact .done _ _ _
    · next h =>
      obtain ⟨-, f2, f3, -⟩ := fireDue_spec (lo := 0) (hi := 0) r s
      dsimp only
      generalize hd : s.fireDue r = due at f2 f3 ⊢
      obtain ⟨n, u⟩ := due
      dsimp only at f2 f3 ⊢
      exact .ofPass hd h f2 (le_refl r) (ih _ _ _ _ (by omega))

end Sys2Proof.Machine
end

