-- ==== Sys2Proof/Laws/PerInstr.lean ====
section
/-! SUPPORT. Per command: its word carries the fixed bits of its row in spec/opcode_table.json (30_encoding.md R81,
R88). -/

namespace Sys2Proof.Laws.TableRow

open Sys2Proof

/-- The mask and the match word of a command's row in spec/opcode_table.json. -/
def row : Instr → Word × Word
  | .nop => (0xFFFFFFFF, 0x04000000)
  | .lil _ _ => (0xFF0F0000, 0x08000000)
  | .lih _ _ => (0xFF0F0000, 0x0C000000)
  | .add _ _ _ _ => (0xFF000BFF, 0x10000000)
  | .sub _ _ _ _ => (0xFF000BFF, 0x14000000)
  | .addi _ _ _ => (0xFF000000, 0x18000000)
  | .mulS _ _ _ _ => (0xFF000BFF, 0x1C000000)
  | .mulH _ _ _ _ => (0xFF000BFF, 0x1D000000)
  | .mulQ _ _ _ _ => (0xFF000BFF, 0x1E000000)
  | .divS _ _ _ _ => (0xFF000BFF, 0x20000000)
  | .divH _ _ _ _ => (0xFF000BFF, 0x21000000)
  | .divQ _ _ _ _ => (0xFF000BFF, 0x22000000)
  | .imul _ _ _ _ => (0xFF000BFF, 0x24000000)
  | .idiv _ _ _ _ => (0xFF000BFF, 0x28000000)
  | .ash _ _ _ _ => (0xFF000BFF, 0x2C000000)
  | .shli _ _ _ => (0xFF00FFE0, 0x30000000)
  | .srai _ _ _ => (0xFF00FFE0, 0x34000000)
  | .srli _ _ _ => (0xFF00FFE0, 0x38000000)
  | .floorS _ _ => (0xFF00FFFF, 0x3C000000)
  | .floorH _ _ => (0xFF00FFFF, 0x3D000000)
  | .floorQ _ _ => (0xFF00FFFF, 0x3E000000)
  | .fractS _ _ => (0xFF00FFFF, 0x40000000)
  | .fractH _ _ => (0xFF00FFFF, 0x41000000)
  | .fractQ _ _ => (0xFF00FFFF, 0x42000000)
  | .sqrtS _ _ => (0xFF00FFFF, 0x44000000)
  | .sqrtH _ _ => (0xFF00FFFF, 0x45000000)
  | .sqrtQ _ _ => (0xFF00FFFF, 0x46000000)
  | .cvtSS _ _ _ => (0xFF00FFFB, 0x48000000)
  | .cvtSH _ _ _ => (0xFF00FFFB, 0x48000001)
  | .cvtSQ _ _ _ => (0xFF00FFFB, 0x48000002)
  | .cvtHS _ _ _ => (0xFF00FFFB, 0x49000000)
  | .cvtHH _ _ _ => (0xFF00FFFB, 0x49000001)
  | .cvtHQ _ _ _ => (0xFF00FFFB, 0x49000002)
  | .cvtQS _ _ _ => (0xFF00FFFB, 0x4A000000)
  | .cvtQH _ _ _ => (0xFF00FFFB, 0x4A000001)
  | .cvtQQ _ _ _ => (0xFF00FFFB, 0x4A000002)
  | .phaccS _ _ _ => (0xFF000FFF, 0x4C000000)
  | .phaccH _ _ _ => (0xFF000FFF, 0x4D000000)
  | .phaccQ _ _ _ => (0xFF000FFF, 0x4E000000)
  | .tliS _ _ _ => (0xFF00FFFE, 0x50000000)
  | .tliH _ _ _ => (0xFF00FFFE, 0x51000000)
  | .sinS _ _ => (0xFF00FFFF, 0x54000000)
  | .sinH _ _ => (0xFF00FFFF, 0x55000000)
  | .cosS _ _ => (0xFF00FFFF, 0x58000000)
  | .cosH _ _ => (0xFF00FFFF, 0x59000000)
  | .exp2S _ _ _ => (0xFF00FBFF, 0x5C000000)
  | .exp2H _ _ _ => (0xFF00FBFF, 0x5D000000)
  | .exp10S _ _ _ => (0xFF00FBFF, 0x60000000)
  | .exp10H _ _ _ => (0xFF00FBFF, 0x61000000)
  | .sq135S _ _ => (0xFF00FFFF, 0x64000000)
  | .sq135H _ _ => (0xFF00FFFF, 0x65000000)
  | .sq35S _ _ => (0xFF00FFFF, 0x68000000)
  | .sq35H _ _ => (0xFF00FFFF, 0x69000000)
  | .ntof _ _ => (0xFF00FFFF, 0x6C000000)
  | .fton _ _ => (0xFF00FFFF, 0x70000000)
  | .romrdSin _ _ => (0xFF00FFFF, 0x74000000)
  | .romrdExp2 _ _ => (0xFF00FFFF, 0x74000001)
  | .romrdNote _ _ => (0xFF00FFFF, 0x74000002)
  | .db2g _ _ _ => (0xFF00FFEF, 0x78000000)
  | .g2db _ _ _ => (0xFF00FFEF, 0x78000001)
  | .ev2s _ _ _ => (0xFF00FFEF, 0x78000002)
  | .s2ev _ _ _ => (0xFF00FFEF, 0x78000003)
  | .vol2s _ _ _ => (0xFF00FFEF, 0x78000004)
  | .s2vol _ _ _ => (0xFF00FFEF, 0x78000005)
  | .p2b _ _ _ => (0xFF00FFEF, 0x78000006)
  | .p2f _ _ _ => (0xFF00FFEF, 0x78000007)
  | .p2q _ _ _ => (0xFF00FFEF, 0x78000008)
  | .p2st _ _ _ => (0xFF00FFEF, 0x78000009)
  | .rand _ => (0xFF0FFFFF, 0x80000000)
  | .rseed _ => (0xFFF0FFFF, 0x84000000)
  | .rget _ => (0xFF0FFFFF, 0x88000000)
  | .etrig _ => (0xFFFFFFF8, 0x90000000)
  | .eoff _ => (0xFFFFFFF8, 0x94000000)
  | .eval _ _ => (0xFF0FFFF8, 0x98000000)
  | .eadv _ => (0xFFFFFFF8, 0x9C000000)
  | .von _ _ => (0xFFF0FFF8, 0xA8000000)
  | .voff _ => (0xFFFFFFF8, 0xAC000000)
  | .vslide _ _ => (0xFFF0FFF8, 0xB0000000)
  | .vgetn _ _ => (0xFF0FFFF8, 0xB4000000)
  | .vphadv _ _ => (0xFFF0FFF8, 0xBC000000)
  | .noteon _ _ _ => (0xFF000FFF, 0xC0000000)
  | .noteoff _ _ => (0xFFF00FFF, 0xC4000000)
  | .anoff => (0xFFFFFFFF, 0xC8000000)
  | .run _ _ _ => (0xFF000FFF, 0xCC000000)
  | .lds _ _ _ => (0xFF000000, 0xE0000000)
  | .sts _ _ _ => (0xFF000000, 0xE4000000)
  | .ldb _ _ _ => (0xFF000000, 0xE8000000)
  | .stb _ _ _ => (0xFF000000, 0xEC000000)

/-- The word of a command carries its row's fixed bits. -/
def Statement (i : Instr) : Prop := encode i &&& (row i).1 = (row i).2

/-- Fixed bits field by field: `g` holds the mask's fields, `e` the match word's. -/
theorem of_fields {i : Instr} (f g e : Fields) (hf : encode i = f.toWord) {mask word : Word} (hm : mask = g.toWord)
    (he : word = e.toWord) (op : f.op &&& g.op = e.op) (w : f.w &&& g.w = e.w) (rd : f.rd &&& g.rd = e.rd)
    (rs1 : f.rs1 &&& g.rs1 = e.rs1) (imm : f.imm &&& g.imm = e.imm) : encode i &&& mask = word := by
  rw [hf, hm, he]
  unfold Fields.toWord
  rw [← op, ← w, ← rd, ← rs1, ← imm]
  rw [BitVec.and_append, BitVec.and_append, BitVec.and_append, BitVec.and_append]

theorem immRM (rs2 : Reg) (m : Ovf) : immR rs2 (ovfBits m) &&& 0x0BFF#16 = 0#16 := by
  revert rs2; cases m <;> decide

theorem imm0M (m : Ovf) : immR 0 (ovfBits m) &&& 0xFBFF#16 = 0#16 := by cases m <;> decide

theorem immR0 (rs2 : Reg) : immR rs2 0#2 &&& 0x0FFF#16 = 0#16 := by revert rs2; decide

theorem immSh (sh : BitVec 5) : (0#11 ++ sh : BitVec 16) &&& 0xFFE0#16 = 0#16 := by revert sh; decide

theorem immV (vi : VoiceIdx) : (0#13 ++ vi : BitVec 16) &&& 0xFFF8#16 = 0#16 := by revert vi; decide

theorem immTli (t : InterpTable) :
    (0#15 ++ (match t with | .sin => 0#1 | .exp2 => 1#1) : BitVec 16) &&& 0xFFFE#16 = 0#16 := by
  cases t <;> decide

theorem immCvt (m : Ovf) (tw : BitVec 2) : (0#12 ++ ovfBits m ++ tw : BitVec 16) &&& 0xFFFB#16 = 0#14 ++ tw := by
  revert tw; cases m <;> decide

theorem immConv (m : Ovf) (fn : BitVec 4) : (0#10 ++ ovfBits m ++ fn : BitVec 16) &&& 0xFFEF#16 = 0#12 ++ fn := by
  revert fn; cases m <;> decide

theorem nop : Statement (.nop) :=
  show encode _ &&& 0xFFFFFFFF = 0x04000000 from
  of_fields _ ⟨0x3F, 3, 15, 15, 0xFFFF⟩ ⟨0x01, 0, 0, 0, 0x0000⟩ rfl (by decide) (by decide)
    (by simp [encodeFields, encN1]) (by simp [encodeFields, encN1]) (by simp [encodeFields, encN1])
    (by simp [encodeFields, encN1]) (by simp [encodeFields, encN1])

theorem lil (rd : Reg) (imm : BitVec 16) : Statement (.lil rd imm) :=
  show encode _ &&& 0xFF0F0000 = 0x08000000 from
  of_fields _ ⟨0x3F, 3, 0, 15, 0x0000⟩ ⟨0x02, 0, 0, 0, 0x0000⟩ rfl (by decide) (by decide)
    (by simp [encodeFields, encIRd]) (by simp [encodeFields, encIRd]) (by simp [encodeFields, encIRd])
    (by simp [encodeFields, encIRd]) (by simp [encodeFields, encIRd])

theorem lih (rd : Reg) (imm : BitVec 16) : Statement (.lih rd imm) :=
  show encode _ &&& 0xFF0F0000 = 0x0C000000 from
  of_fields _ ⟨0x3F, 3, 0, 15, 0x0000⟩ ⟨0x03, 0, 0, 0, 0x0000⟩ rfl (by decide) (by decide)
    (by simp [encodeFields, encIRd]) (by simp [encodeFields, encIRd]) (by simp [encodeFields, encIRd])
    (by simp [encodeFields, encIRd]) (by simp [encodeFields, encIRd])

theorem add (rd rs1 rs2 : Reg) (m : Ovf) : Statement (.add rd rs1 rs2 m) :=
  show encode _ &&& 0xFF000BFF = 0x10000000 from
  of_fields _ ⟨0x3F, 3, 0, 0, 0x0BFF⟩ ⟨0x04, 0, 0, 0, 0x0000⟩ rfl (by decide) (by decide)
    (by simp [encodeFields, encR3M]) (by simp [encodeFields, encR3M]) (by simp [encodeFields, encR3M])
    (by simp [encodeFields, encR3M]) (immRM rs2 m)

theorem sub (rd rs1 rs2 : Reg) (m : Ovf) : Statement (.sub rd rs1 rs2 m) :=
  show encode _ &&& 0xFF000BFF = 0x14000000 from
  of_fields _ ⟨0x3F, 3, 0, 0, 0x0BFF⟩ ⟨0x05, 0, 0, 0, 0x0000⟩ rfl (by decide) (by decide)
    (by simp [encodeFields, encR3M]) (by simp [encodeFields, encR3M]) (by simp [encodeFields, encR3M])
    (by simp [encodeFields, encR3M]) (immRM rs2 m)

theorem addi (rd rs1 : Reg) (imm : BitVec 16) : Statement (.addi rd rs1 imm) :=
  show encode _ &&& 0xFF000000 = 0x18000000 from
  of_fields _ ⟨0x3F, 3, 0, 0, 0x0000⟩ ⟨0x06, 0, 0, 0, 0x0000⟩ rfl (by decide) (by decide)
    (by simp [encodeFields, encI]) (by simp [encodeFields, encI]) (by simp [encodeFields, encI])
    (by simp [encodeFields, encI]) (by simp [encodeFields, encI])

theorem mulS (rd rs1 rs2 : Reg) (m : Ovf) : Statement (.mulS rd rs1 rs2 m) :=
  show encode _ &&& 0xFF000BFF = 0x1C000000 from
  of_fields _ ⟨0x3F, 3, 0, 0, 0x0BFF⟩ ⟨0x07, 0, 0, 0, 0x0000⟩ rfl (by decide) (by decide)
    (by simp [encodeFields, encR3M]) (by simp [encodeFields, encR3M]) (by simp [encodeFields, encR3M])
    (by simp [encodeFields, encR3M]) (immRM rs2 m)

theorem mulH (rd rs1 rs2 : Reg) (m : Ovf) : Statement (.mulH rd rs1 rs2 m) :=
  show encode _ &&& 0xFF000BFF = 0x1D000000 from
  of_fields _ ⟨0x3F, 3, 0, 0, 0x0BFF⟩ ⟨0x07, 1, 0, 0, 0x0000⟩ rfl (by decide) (by decide)
    (by simp [encodeFields, encR3M]) (by simp [encodeFields, encR3M]) (by simp [encodeFields, encR3M])
    (by simp [encodeFields, encR3M]) (immRM rs2 m)

theorem mulQ (rd rs1 rs2 : Reg) (m : Ovf) : Statement (.mulQ rd rs1 rs2 m) :=
  show encode _ &&& 0xFF000BFF = 0x1E000000 from
  of_fields _ ⟨0x3F, 3, 0, 0, 0x0BFF⟩ ⟨0x07, 2, 0, 0, 0x0000⟩ rfl (by decide) (by decide)
    (by simp [encodeFields, encR3M]) (by simp [encodeFields, encR3M]) (by simp [encodeFields, encR3M])
    (by simp [encodeFields, encR3M]) (immRM rs2 m)

theorem divS (rd rs1 rs2 : Reg) (m : Ovf) : Statement (.divS rd rs1 rs2 m) :=
  show encode _ &&& 0xFF000BFF = 0x20000000 from
  of_fields _ ⟨0x3F, 3, 0, 0, 0x0BFF⟩ ⟨0x08, 0, 0, 0, 0x0000⟩ rfl (by decide) (by decide)
    (by simp [encodeFields, encR3M]) (by simp [encodeFields, encR3M]) (by simp [encodeFields, encR3M])
    (by simp [encodeFields, encR3M]) (immRM rs2 m)

theorem divH (rd rs1 rs2 : Reg) (m : Ovf) : Statement (.divH rd rs1 rs2 m) :=
  show encode _ &&& 0xFF000BFF = 0x21000000 from
  of_fields _ ⟨0x3F, 3, 0, 0, 0x0BFF⟩ ⟨0x08, 1, 0, 0, 0x0000⟩ rfl (by decide) (by decide)
    (by simp [encodeFields, encR3M]) (by simp [encodeFields, encR3M]) (by simp [encodeFields, encR3M])
    (by simp [encodeFields, encR3M]) (immRM rs2 m)

theorem divQ (rd rs1 rs2 : Reg) (m : Ovf) : Statement (.divQ rd rs1 rs2 m) :=
  show encode _ &&& 0xFF000BFF = 0x22000000 from
  of_fields _ ⟨0x3F, 3, 0, 0, 0x0BFF⟩ ⟨0x08, 2, 0, 0, 0x0000⟩ rfl (by decide) (by decide)
    (by simp [encodeFields, encR3M]) (by simp [encodeFields, encR3M]) (by simp [encodeFields, encR3M])
    (by simp [encodeFields, encR3M]) (immRM rs2 m)

theorem imul (rd rs1 rs2 : Reg) (m : Ovf) : Statement (.imul rd rs1 rs2 m) :=
  show encode _ &&& 0xFF000BFF = 0x24000000 from
  of_fields _ ⟨0x3F, 3, 0, 0, 0x0BFF⟩ ⟨0x09, 0, 0, 0, 0x0000⟩ rfl (by decide) (by decide)
    (by simp [encodeFields, encR3M]) (by simp [encodeFields, encR3M]) (by simp [encodeFields, encR3M])
    (by simp [encodeFields, encR3M]) (immRM rs2 m)

theorem idiv (rd rs1 rs2 : Reg) (m : Ovf) : Statement (.idiv rd rs1 rs2 m) :=
  show encode _ &&& 0xFF000BFF = 0x28000000 from
  of_fields _ ⟨0x3F, 3, 0, 0, 0x0BFF⟩ ⟨0x0A, 0, 0, 0, 0x0000⟩ rfl (by decide) (by decide)
    (by simp [encodeFields, encR3M]) (by simp [encodeFields, encR3M]) (by simp [encodeFields, encR3M])
    (by simp [encodeFields, encR3M]) (immRM rs2 m)

theorem ash (rd rs1 rs2 : Reg) (m : Ovf) : Statement (.ash rd rs1 rs2 m) :=
  show encode _ &&& 0xFF000BFF = 0x2C000000 from
  of_fields _ ⟨0x3F, 3, 0, 0, 0x0BFF⟩ ⟨0x0B, 0, 0, 0, 0x0000⟩ rfl (by decide) (by decide)
    (by simp [encodeFields, encR3M]) (by simp [encodeFields, encR3M]) (by simp [encodeFields, encR3M])
    (by simp [encodeFields, encR3M]) (immRM rs2 m)

theorem shli (rd rs1 : Reg) (sh : BitVec 5) : Statement (.shli rd rs1 sh) :=
  show encode _ &&& 0xFF00FFE0 = 0x30000000 from
  of_fields _ ⟨0x3F, 3, 0, 0, 0xFFE0⟩ ⟨0x0C, 0, 0, 0, 0x0000⟩ rfl (by decide) (by decide)
    (by simp [encodeFields, encSh]) (by simp [encodeFields, encSh]) (by simp [encodeFields, encSh])
    (by simp [encodeFields, encSh]) (immSh sh)

theorem srai (rd rs1 : Reg) (sh : BitVec 5) : Statement (.srai rd rs1 sh) :=
  show encode _ &&& 0xFF00FFE0 = 0x34000000 from
  of_fields _ ⟨0x3F, 3, 0, 0, 0xFFE0⟩ ⟨0x0D, 0, 0, 0, 0x0000⟩ rfl (by decide) (by decide)
    (by simp [encodeFields, encSh]) (by simp [encodeFields, encSh]) (by simp [encodeFields, encSh])
    (by simp [encodeFields, encSh]) (immSh sh)

theorem srli (rd rs1 : Reg) (sh : BitVec 5) : Statement (.srli rd rs1 sh) :=
  show encode _ &&& 0xFF00FFE0 = 0x38000000 from
  of_fields _ ⟨0x3F, 3, 0, 0, 0xFFE0⟩ ⟨0x0E, 0, 0, 0, 0x0000⟩ rfl (by decide) (by decide)
    (by simp [encodeFields, encSh]) (by simp [encodeFields, encSh]) (by simp [encodeFields, encSh])
    (by simp [encodeFields, encSh]) (immSh sh)

theorem floorS (rd rs1 : Reg) : Statement (.floorS rd rs1) :=
  show encode _ &&& 0xFF00FFFF = 0x3C000000 from
  of_fields _ ⟨0x3F, 3, 0, 0, 0xFFFF⟩ ⟨0x0F, 0, 0, 0, 0x0000⟩ rfl (by decide) (by decide)
    (by simp [encodeFields, encR2]) (by simp [encodeFields, encR2]) (by simp [encodeFields, encR2])
    (by simp [encodeFields, encR2]) (by simp [encodeFields, encR2])

theorem floorH (rd rs1 : Reg) : Statement (.floorH rd rs1) :=
  show encode _ &&& 0xFF00FFFF = 0x3D000000 from
  of_fields _ ⟨0x3F, 3, 0, 0, 0xFFFF⟩ ⟨0x0F, 1, 0, 0, 0x0000⟩ rfl (by decide) (by decide)
    (by simp [encodeFields, encR2]) (by simp [encodeFields, encR2]) (by simp [encodeFields, encR2])
    (by simp [encodeFields, encR2]) (by simp [encodeFields, encR2])

theorem floorQ (rd rs1 : Reg) : Statement (.floorQ rd rs1) :=
  show encode _ &&& 0xFF00FFFF = 0x3E000000 from
  of_fields _ ⟨0x3F, 3, 0, 0, 0xFFFF⟩ ⟨0x0F, 2, 0, 0, 0x0000⟩ rfl (by decide) (by decide)
    (by simp [encodeFields, encR2]) (by simp [encodeFields, encR2]) (by simp [encodeFields, encR2])
    (by simp [encodeFields, encR2]) (by simp [encodeFields, encR2])

theorem fractS (rd rs1 : Reg) : Statement (.fractS rd rs1) :=
  show encode _ &&& 0xFF00FFFF = 0x40000000 from
  of_fields _ ⟨0x3F, 3, 0, 0, 0xFFFF⟩ ⟨0x10, 0, 0, 0, 0x0000⟩ rfl (by decide) (by decide)
    (by simp [encodeFields, encR2]) (by simp [encodeFields, encR2]) (by simp [encodeFields, encR2])
    (by simp [encodeFields, encR2]) (by simp [encodeFields, encR2])

theorem fractH (rd rs1 : Reg) : Statement (.fractH rd rs1) :=
  show encode _ &&& 0xFF00FFFF = 0x41000000 from
  of_fields _ ⟨0x3F, 3, 0, 0, 0xFFFF⟩ ⟨0x10, 1, 0, 0, 0x0000⟩ rfl (by decide) (by decide)
    (by simp [encodeFields, encR2]) (by simp [encodeFields, encR2]) (by simp [encodeFields, encR2])
    (by simp [encodeFields, encR2]) (by simp [encodeFields, encR2])

theorem fractQ (rd rs1 : Reg) : Statement (.fractQ rd rs1) :=
  show encode _ &&& 0xFF00FFFF = 0x42000000 from
  of_fields _ ⟨0x3F, 3, 0, 0, 0xFFFF⟩ ⟨0x10, 2, 0, 0, 0x0000⟩ rfl (by decide) (by decide)
    (by simp [encodeFields, encR2]) (by simp [encodeFields, encR2]) (by simp [encodeFields, encR2])
    (by simp [encodeFields, encR2]) (by simp [encodeFields, encR2])

theorem sqrtS (rd rs1 : Reg) : Statement (.sqrtS rd rs1) :=
  show encode _ &&& 0xFF00FFFF = 0x44000000 from
  of_fields _ ⟨0x3F, 3, 0, 0, 0xFFFF⟩ ⟨0x11, 0, 0, 0, 0x0000⟩ rfl (by decide) (by decide)
    (by simp [encodeFields, encR2]) (by simp [encodeFields, encR2]) (by simp [encodeFields, encR2])
    (by simp [encodeFields, encR2]) (by simp [encodeFields, encR2])

theorem sqrtH (rd rs1 : Reg) : Statement (.sqrtH rd rs1) :=
  show encode _ &&& 0xFF00FFFF = 0x45000000 from
  of_fields _ ⟨0x3F, 3, 0, 0, 0xFFFF⟩ ⟨0x11, 1, 0, 0, 0x0000⟩ rfl (by decide) (by decide)
    (by simp [encodeFields, encR2]) (by simp [encodeFields, encR2]) (by simp [encodeFields, encR2])
    (by simp [encodeFields, encR2]) (by simp [encodeFields, encR2])

theorem sqrtQ (rd rs1 : Reg) : Statement (.sqrtQ rd rs1) :=
  show encode _ &&& 0xFF00FFFF = 0x46000000 from
  of_fields _ ⟨0x3F, 3, 0, 0, 0xFFFF⟩ ⟨0x11, 2, 0, 0, 0x0000⟩ rfl (by decide) (by decide)
    (by simp [encodeFields, encR2]) (by simp [encodeFields, encR2]) (by simp [encodeFields, encR2])
    (by simp [encodeFields, encR2]) (by simp [encodeFields, encR2])

theorem cvtSS (rd rs1 : Reg) (m : Ovf) : Statement (.cvtSS rd rs1 m) :=
  show encode _ &&& 0xFF00FFFB = 0x48000000 from
  of_fields _ ⟨0x3F, 3, 0, 0, 0xFFFB⟩ ⟨0x12, 0, 0, 0, 0x0000⟩ rfl (by decide) (by decide)
    (by simp [encodeFields, encCvt]) (by simp [encodeFields, encCvt]) (by simp [encodeFields, encCvt])
    (by simp [encodeFields, encCvt]) (immCvt m 0#2)

theorem cvtSH (rd rs1 : Reg) (m : Ovf) : Statement (.cvtSH rd rs1 m) :=
  show encode _ &&& 0xFF00FFFB = 0x48000001 from
  of_fields _ ⟨0x3F, 3, 0, 0, 0xFFFB⟩ ⟨0x12, 0, 0, 0, 0x0001⟩ rfl (by decide) (by decide)
    (by simp [encodeFields, encCvt]) (by simp [encodeFields, encCvt]) (by simp [encodeFields, encCvt])
    (by simp [encodeFields, encCvt]) (immCvt m 1#2)

theorem cvtSQ (rd rs1 : Reg) (m : Ovf) : Statement (.cvtSQ rd rs1 m) :=
  show encode _ &&& 0xFF00FFFB = 0x48000002 from
  of_fields _ ⟨0x3F, 3, 0, 0, 0xFFFB⟩ ⟨0x12, 0, 0, 0, 0x0002⟩ rfl (by decide) (by decide)
    (by simp [encodeFields, encCvt]) (by simp [encodeFields, encCvt]) (by simp [encodeFields, encCvt])
    (by simp [encodeFields, encCvt]) (immCvt m 2#2)

theorem cvtHS (rd rs1 : Reg) (m : Ovf) : Statement (.cvtHS rd rs1 m) :=
  show encode _ &&& 0xFF00FFFB = 0x49000000 from
  of_fields _ ⟨0x3F, 3, 0, 0, 0xFFFB⟩ ⟨0x12, 1, 0, 0, 0x0000⟩ rfl (by decide) (by decide)
    (by simp [encodeFields, encCvt]) (by simp [encodeFields, encCvt]) (by simp [encodeFields, encCvt])
    (by simp [encodeFields, encCvt]) (immCvt m 0#2)

theorem cvtHH (rd rs1 : Reg) (m : Ovf) : Statement (.cvtHH rd rs1 m) :=
  show encode _ &&& 0xFF00FFFB = 0x49000001 from
  of_fields _ ⟨0x3F, 3, 0, 0, 0xFFFB⟩ ⟨0x12, 1, 0, 0, 0x0001⟩ rfl (by decide) (by decide)
    (by simp [encodeFields, encCvt]) (by simp [encodeFields, encCvt]) (by simp [encodeFields, encCvt])
    (by simp [encodeFields, encCvt]) (immCvt m 1#2)

theorem cvtHQ (rd rs1 : Reg) (m : Ovf) : Statement (.cvtHQ rd rs1 m) :=
  show encode _ &&& 0xFF00FFFB = 0x49000002 from
  of_fields _ ⟨0x3F, 3, 0, 0, 0xFFFB⟩ ⟨0x12, 1, 0, 0, 0x0002⟩ rfl (by decide) (by decide)
    (by simp [encodeFields, encCvt]) (by simp [encodeFields, encCvt]) (by simp [encodeFields, encCvt])
    (by simp [encodeFields, encCvt]) (immCvt m 2#2)

theorem cvtQS (rd rs1 : Reg) (m : Ovf) : Statement (.cvtQS rd rs1 m) :=
  show encode _ &&& 0xFF00FFFB = 0x4A000000 from
  of_fields _ ⟨0x3F, 3, 0, 0, 0xFFFB⟩ ⟨0x12, 2, 0, 0, 0x0000⟩ rfl (by decide) (by decide)
    (by simp [encodeFields, encCvt]) (by simp [encodeFields, encCvt]) (by simp [encodeFields, encCvt])
    (by simp [encodeFields, encCvt]) (immCvt m 0#2)

theorem cvtQH (rd rs1 : Reg) (m : Ovf) : Statement (.cvtQH rd rs1 m) :=
  show encode _ &&& 0xFF00FFFB = 0x4A000001 from
  of_fields _ ⟨0x3F, 3, 0, 0, 0xFFFB⟩ ⟨0x12, 2, 0, 0, 0x0001⟩ rfl (by decide) (by decide)
    (by simp [encodeFields, encCvt]) (by simp [encodeFields, encCvt]) (by simp [encodeFields, encCvt])
    (by simp [encodeFields, encCvt]) (immCvt m 1#2)

theorem cvtQQ (rd rs1 : Reg) (m : Ovf) : Statement (.cvtQQ rd rs1 m) :=
  show encode _ &&& 0xFF00FFFB = 0x4A000002 from
  of_fields _ ⟨0x3F, 3, 0, 0, 0xFFFB⟩ ⟨0x12, 2, 0, 0, 0x0002⟩ rfl (by decide) (by decide)
    (by simp [encodeFields, encCvt]) (by simp [encodeFields, encCvt]) (by simp [encodeFields, encCvt])
    (by simp [encodeFields, encCvt]) (immCvt m 2#2)

theorem phaccS (rd rs1 rs2 : Reg) : Statement (.phaccS rd rs1 rs2) :=
  show encode _ &&& 0xFF000FFF = 0x4C000000 from
  of_fields _ ⟨0x3F, 3, 0, 0, 0x0FFF⟩ ⟨0x13, 0, 0, 0, 0x0000⟩ rfl (by decide) (by decide)
    (by simp [encodeFields, encR3]) (by simp [encodeFields, encR3]) (by simp [encodeFields, encR3])
    (by simp [encodeFields, encR3]) (immR0 rs2)

theorem phaccH (rd rs1 rs2 : Reg) : Statement (.phaccH rd rs1 rs2) :=
  show encode _ &&& 0xFF000FFF = 0x4D000000 from
  of_fields _ ⟨0x3F, 3, 0, 0, 0x0FFF⟩ ⟨0x13, 1, 0, 0, 0x0000⟩ rfl (by decide) (by decide)
    (by simp [encodeFields, encR3]) (by simp [encodeFields, encR3]) (by simp [encodeFields, encR3])
    (by simp [encodeFields, encR3]) (immR0 rs2)

theorem phaccQ (rd rs1 rs2 : Reg) : Statement (.phaccQ rd rs1 rs2) :=
  show encode _ &&& 0xFF000FFF = 0x4E000000 from
  of_fields _ ⟨0x3F, 3, 0, 0, 0x0FFF⟩ ⟨0x13, 2, 0, 0, 0x0000⟩ rfl (by decide) (by decide)
    (by simp [encodeFields, encR3]) (by simp [encodeFields, encR3]) (by simp [encodeFields, encR3])
    (by simp [encodeFields, encR3]) (immR0 rs2)

theorem tliS (rd rs1 : Reg) (t : InterpTable) : Statement (.tliS rd rs1 t) :=
  show encode _ &&& 0xFF00FFFE = 0x50000000 from
  of_fields _ ⟨0x3F, 3, 0, 0, 0xFFFE⟩ ⟨0x14, 0, 0, 0, 0x0000⟩ rfl (by decide) (by decide)
    (by simp [encodeFields, encTli]) (by simp [encodeFields, encTli]) (by simp [encodeFields, encTli])
    (by simp [encodeFields, encTli]) (immTli t)

theorem tliH (rd rs1 : Reg) (t : InterpTable) : Statement (.tliH rd rs1 t) :=
  show encode _ &&& 0xFF00FFFE = 0x51000000 from
  of_fields _ ⟨0x3F, 3, 0, 0, 0xFFFE⟩ ⟨0x14, 1, 0, 0, 0x0000⟩ rfl (by decide) (by decide)
    (by simp [encodeFields, encTli]) (by simp [encodeFields, encTli]) (by simp [encodeFields, encTli])
    (by simp [encodeFields, encTli]) (immTli t)

theorem sinS (rd rs1 : Reg) : Statement (.sinS rd rs1) :=
  show encode _ &&& 0xFF00FFFF = 0x54000000 from
  of_fields _ ⟨0x3F, 3, 0, 0, 0xFFFF⟩ ⟨0x15, 0, 0, 0, 0x0000⟩ rfl (by decide) (by decide)
    (by simp [encodeFields, encR2]) (by simp [encodeFields, encR2]) (by simp [encodeFields, encR2])
    (by simp [encodeFields, encR2]) (by simp [encodeFields, encR2])

theorem sinH (rd rs1 : Reg) : Statement (.sinH rd rs1) :=
  show encode _ &&& 0xFF00FFFF = 0x55000000 from
  of_fields _ ⟨0x3F, 3, 0, 0, 0xFFFF⟩ ⟨0x15, 1, 0, 0, 0x0000⟩ rfl (by decide) (by decide)
    (by simp [encodeFields, encR2]) (by simp [encodeFields, encR2]) (by simp [encodeFields, encR2])
    (by simp [encodeFields, encR2]) (by simp [encodeFields, encR2])

theorem cosS (rd rs1 : Reg) : Statement (.cosS rd rs1) :=
  show encode _ &&& 0xFF00FFFF = 0x58000000 from
  of_fields _ ⟨0x3F, 3, 0, 0, 0xFFFF⟩ ⟨0x16, 0, 0, 0, 0x0000⟩ rfl (by decide) (by decide)
    (by simp [encodeFields, encR2]) (by simp [encodeFields, encR2]) (by simp [encodeFields, encR2])
    (by simp [encodeFields, encR2]) (by simp [encodeFields, encR2])

theorem cosH (rd rs1 : Reg) : Statement (.cosH rd rs1) :=
  show encode _ &&& 0xFF00FFFF = 0x59000000 from
  of_fields _ ⟨0x3F, 3, 0, 0, 0xFFFF⟩ ⟨0x16, 1, 0, 0, 0x0000⟩ rfl (by decide) (by decide)
    (by simp [encodeFields, encR2]) (by simp [encodeFields, encR2]) (by simp [encodeFields, encR2])
    (by simp [encodeFields, encR2]) (by simp [encodeFields, encR2])

theorem exp2S (rd rs1 : Reg) (m : Ovf) : Statement (.exp2S rd rs1 m) :=
  show encode _ &&& 0xFF00FBFF = 0x5C000000 from
  of_fields _ ⟨0x3F, 3, 0, 0, 0xFBFF⟩ ⟨0x17, 0, 0, 0, 0x0000⟩ rfl (by decide) (by decide)
    (by simp [encodeFields, encR2M]) (by simp [encodeFields, encR2M]) (by simp [encodeFields, encR2M])
    (by simp [encodeFields, encR2M]) (imm0M m)

theorem exp2H (rd rs1 : Reg) (m : Ovf) : Statement (.exp2H rd rs1 m) :=
  show encode _ &&& 0xFF00FBFF = 0x5D000000 from
  of_fields _ ⟨0x3F, 3, 0, 0, 0xFBFF⟩ ⟨0x17, 1, 0, 0, 0x0000⟩ rfl (by decide) (by decide)
    (by simp [encodeFields, encR2M]) (by simp [encodeFields, encR2M]) (by simp [encodeFields, encR2M])
    (by simp [encodeFields, encR2M]) (imm0M m)

theorem exp10S (rd rs1 : Reg) (m : Ovf) : Statement (.exp10S rd rs1 m) :=
  show encode _ &&& 0xFF00FBFF = 0x60000000 from
  of_fields _ ⟨0x3F, 3, 0, 0, 0xFBFF⟩ ⟨0x18, 0, 0, 0, 0x0000⟩ rfl (by decide) (by decide)
    (by simp [encodeFields, encR2M]) (by simp [encodeFields, encR2M]) (by simp [encodeFields, encR2M])
    (by simp [encodeFields, encR2M]) (imm0M m)

theorem exp10H (rd rs1 : Reg) (m : Ovf) : Statement (.exp10H rd rs1 m) :=
  show encode _ &&& 0xFF00FBFF = 0x61000000 from
  of_fields _ ⟨0x3F, 3, 0, 0, 0xFBFF⟩ ⟨0x18, 1, 0, 0, 0x0000⟩ rfl (by decide) (by decide)
    (by simp [encodeFields, encR2M]) (by simp [encodeFields, encR2M]) (by simp [encodeFields, encR2M])
    (by simp [encodeFields, encR2M]) (imm0M m)

theorem sq135S (rd rs1 : Reg) : Statement (.sq135S rd rs1) :=
  show encode _ &&& 0xFF00FFFF = 0x64000000 from
  of_fields _ ⟨0x3F, 3, 0, 0, 0xFFFF⟩ ⟨0x19, 0, 0, 0, 0x0000⟩ rfl (by decide) (by decide)
    (by simp [encodeFields, encR2]) (by simp [encodeFields, encR2]) (by simp [encodeFields, encR2])
    (by simp [encodeFields, encR2]) (by simp [encodeFields, encR2])

theorem sq135H (rd rs1 : Reg) : Statement (.sq135H rd rs1) :=
  show encode _ &&& 0xFF00FFFF = 0x65000000 from
  of_fields _ ⟨0x3F, 3, 0, 0, 0xFFFF⟩ ⟨0x19, 1, 0, 0, 0x0000⟩ rfl (by decide) (by decide)
    (by simp [encodeFields, encR2]) (by simp [encodeFields, encR2]) (by simp [encodeFields, encR2])
    (by simp [encodeFields, encR2]) (by simp [encodeFields, encR2])

theorem sq35S (rd rs1 : Reg) : Statement (.sq35S rd rs1) :=
  show encode _ &&& 0xFF00FFFF = 0x68000000 from
  of_fields _ ⟨0x3F, 3, 0, 0, 0xFFFF⟩ ⟨0x1A, 0, 0, 0, 0x0000⟩ rfl (by decide) (by decide)
    (by simp [encodeFields, encR2]) (by simp [encodeFields, encR2]) (by simp [encodeFields, encR2])
    (by simp [encodeFields, encR2]) (by simp [encodeFields, encR2])

theorem sq35H (rd rs1 : Reg) : Statement (.sq35H rd rs1) :=
  show encode _ &&& 0xFF00FFFF = 0x69000000 from
  of_fields _ ⟨0x3F, 3, 0, 0, 0xFFFF⟩ ⟨0x1A, 1, 0, 0, 0x0000⟩ rfl (by decide) (by decide)
    (by simp [encodeFields, encR2]) (by simp [encodeFields, encR2]) (by simp [encodeFields, encR2])
    (by simp [encodeFields, encR2]) (by simp [encodeFields, encR2])

theorem ntof (rd rs1 : Reg) : Statement (.ntof rd rs1) :=
  show encode _ &&& 0xFF00FFFF = 0x6C000000 from
  of_fields _ ⟨0x3F, 3, 0, 0, 0xFFFF⟩ ⟨0x1B, 0, 0, 0, 0x0000⟩ rfl (by decide) (by decide)
    (by simp [encodeFields, encR2]) (by simp [encodeFields, encR2]) (by simp [encodeFields, encR2])
    (by simp [encodeFields, encR2]) (by simp [encodeFields, encR2])

theorem fton (rd rs1 : Reg) : Statement (.fton rd rs1) :=
  show encode _ &&& 0xFF00FFFF = 0x70000000 from
  of_fields _ ⟨0x3F, 3, 0, 0, 0xFFFF⟩ ⟨0x1C, 0, 0, 0, 0x0000⟩ rfl (by decide) (by decide)
    (by simp [encodeFields, encR2]) (by simp [encodeFields, encR2]) (by simp [encodeFields, encR2])
    (by simp [encodeFields, encR2]) (by simp [encodeFields, encR2])

theorem romrdSin (rd rs1 : Reg) : Statement (.romrdSin rd rs1) :=
  show encode _ &&& 0xFF00FFFF = 0x74000000 from
  of_fields _ ⟨0x3F, 3, 0, 0, 0xFFFF⟩ ⟨0x1D, 0, 0, 0, 0x0000⟩ rfl (by decide) (by decide)
    (by simp [encodeFields, encRom]) (by simp [encodeFields, encRom]) (by simp [encodeFields, encRom])
    (by simp [encodeFields, encRom]) (by simp [encodeFields, encRom])

theorem romrdExp2 (rd rs1 : Reg) : Statement (.romrdExp2 rd rs1) :=
  show encode _ &&& 0xFF00FFFF = 0x74000001 from
  of_fields _ ⟨0x3F, 3, 0, 0, 0xFFFF⟩ ⟨0x1D, 0, 0, 0, 0x0001⟩ rfl (by decide) (by decide)
    (by simp [encodeFields, encRom]) (by simp [encodeFields, encRom]) (by simp [encodeFields, encRom])
    (by simp [encodeFields, encRom]) (by simp [encodeFields, encRom])

theorem romrdNote (rd rs1 : Reg) : Statement (.romrdNote rd rs1) :=
  show encode _ &&& 0xFF00FFFF = 0x74000002 from
  of_fields _ ⟨0x3F, 3, 0, 0, 0xFFFF⟩ ⟨0x1D, 0, 0, 0, 0x0002⟩ rfl (by decide) (by decide)
    (by simp [encodeFields, encRom]) (by simp [encodeFields, encRom]) (by simp [encodeFields, encRom])
    (by simp [encodeFields, encRom]) (by simp [encodeFields, encRom])

theorem db2g (rd rs1 : Reg) (m : Ovf) : Statement (.db2g rd rs1 m) :=
  show encode _ &&& 0xFF00FFEF = 0x78000000 from
  of_fields _ ⟨0x3F, 3, 0, 0, 0xFFEF⟩ ⟨0x1E, 0, 0, 0, 0x0000⟩ rfl (by decide) (by decide)
    (by simp [encodeFields, encConv]) (by simp [encodeFields, encConv]) (by simp [encodeFields, encConv])
    (by simp [encodeFields, encConv]) (immConv m 0#4)

theorem g2db (rd rs1 : Reg) (m : Ovf) : Statement (.g2db rd rs1 m) :=
  show encode _ &&& 0xFF00FFEF = 0x78000001 from
  of_fields _ ⟨0x3F, 3, 0, 0, 0xFFEF⟩ ⟨0x1E, 0, 0, 0, 0x0001⟩ rfl (by decide) (by decide)
    (by simp [encodeFields, encConv]) (by simp [encodeFields, encConv]) (by simp [encodeFields, encConv])
    (by simp [encodeFields, encConv]) (immConv m 1#4)

theorem ev2s (rd rs1 : Reg) (m : Ovf) : Statement (.ev2s rd rs1 m) :=
  show encode _ &&& 0xFF00FFEF = 0x78000002 from
  of_fields _ ⟨0x3F, 3, 0, 0, 0xFFEF⟩ ⟨0x1E, 0, 0, 0, 0x0002⟩ rfl (by decide) (by decide)
    (by simp [encodeFields, encConv]) (by simp [encodeFields, encConv]) (by simp [encodeFields, encConv])
    (by simp [encodeFields, encConv]) (immConv m 2#4)

theorem s2ev (rd rs1 : Reg) (m : Ovf) : Statement (.s2ev rd rs1 m) :=
  show encode _ &&& 0xFF00FFEF = 0x78000003 from
  of_fields _ ⟨0x3F, 3, 0, 0, 0xFFEF⟩ ⟨0x1E, 0, 0, 0, 0x0003⟩ rfl (by decide) (by decide)
    (by simp [encodeFields, encConv]) (by simp [encodeFields, encConv]) (by simp [encodeFields, encConv])
    (by simp [encodeFields, encConv]) (immConv m 3#4)

theorem vol2s (rd rs1 : Reg) (m : Ovf) : Statement (.vol2s rd rs1 m) :=
  show encode _ &&& 0xFF00FFEF = 0x78000004 from
  of_fields _ ⟨0x3F, 3, 0, 0, 0xFFEF⟩ ⟨0x1E, 0, 0, 0, 0x0004⟩ rfl (by decide) (by decide)
    (by simp [encodeFields, encConv]) (by simp [encodeFields, encConv]) (by simp [encodeFields, encConv])
    (by simp [encodeFields, encConv]) (immConv m 4#4)

theorem s2vol (rd rs1 : Reg) (m : Ovf) : Statement (.s2vol rd rs1 m) :=
  show encode _ &&& 0xFF00FFEF = 0x78000005 from
  of_fields _ ⟨0x3F, 3, 0, 0, 0xFFEF⟩ ⟨0x1E, 0, 0, 0, 0x0005⟩ rfl (by decide) (by decide)
    (by simp [encodeFields, encConv]) (by simp [encodeFields, encConv]) (by simp [encodeFields, encConv])
    (by simp [encodeFields, encConv]) (immConv m 5#4)

theorem p2b (rd rs1 : Reg) (m : Ovf) : Statement (.p2b rd rs1 m) :=
  show encode _ &&& 0xFF00FFEF = 0x78000006 from
  of_fields _ ⟨0x3F, 3, 0, 0, 0xFFEF⟩ ⟨0x1E, 0, 0, 0, 0x0006⟩ rfl (by decide) (by decide)
    (by simp [encodeFields, encConv]) (by simp [encodeFields, encConv]) (by simp [encodeFields, encConv])
    (by simp [encodeFields, encConv]) (immConv m 6#4)

theorem p2f (rd rs1 : Reg) (m : Ovf) : Statement (.p2f rd rs1 m) :=
  show encode _ &&& 0xFF00FFEF = 0x78000007 from
  of_fields _ ⟨0x3F, 3, 0, 0, 0xFFEF⟩ ⟨0x1E, 0, 0, 0, 0x0007⟩ rfl (by decide) (by decide)
    (by simp [encodeFields, encConv]) (by simp [encodeFields, encConv]) (by simp [encodeFields, encConv])
    (by simp [encodeFields, encConv]) (immConv m 7#4)

theorem p2q (rd rs1 : Reg) (m : Ovf) : Statement (.p2q rd rs1 m) :=
  show encode _ &&& 0xFF00FFEF = 0x78000008 from
  of_fields _ ⟨0x3F, 3, 0, 0, 0xFFEF⟩ ⟨0x1E, 0, 0, 0, 0x0008⟩ rfl (by decide) (by decide)
    (by simp [encodeFields, encConv]) (by simp [encodeFields, encConv]) (by simp [encodeFields, encConv])
    (by simp [encodeFields, encConv]) (immConv m 8#4)

theorem p2st (rd rs1 : Reg) (m : Ovf) : Statement (.p2st rd rs1 m) :=
  show encode _ &&& 0xFF00FFEF = 0x78000009 from
  of_fields _ ⟨0x3F, 3, 0, 0, 0xFFEF⟩ ⟨0x1E, 0, 0, 0, 0x0009⟩ rfl (by decide) (by decide)
    (by simp [encodeFields, encConv]) (by simp [encodeFields, encConv]) (by simp [encodeFields, encConv])
    (by simp [encodeFields, encConv]) (immConv m 9#4)

theorem rand (rd : Reg) : Statement (.rand rd) :=
  show encode _ &&& 0xFF0FFFFF = 0x80000000 from
  of_fields _ ⟨0x3F, 3, 0, 15, 0xFFFF⟩ ⟨0x20, 0, 0, 0, 0x0000⟩ rfl (by decide) (by decide)
    (by simp [encodeFields, encRd]) (by simp [encodeFields, encRd]) (by simp [encodeFields, encRd])
    (by simp [encodeFields, encRd]) (by simp [encodeFields, encRd])

theorem rseed (rs1 : Reg) : Statement (.rseed rs1) :=
  show encode _ &&& 0xFFF0FFFF = 0x84000000 from
  of_fields _ ⟨0x3F, 3, 15, 0, 0xFFFF⟩ ⟨0x21, 0, 0, 0, 0x0000⟩ rfl (by decide) (by decide)
    (by simp [encodeFields, encRs1]) (by simp [encodeFields, encRs1]) (by simp [encodeFields, encRs1])
    (by simp [encodeFields, encRs1]) (by simp [encodeFields, encRs1])

theorem rget (rd : Reg) : Statement (.rget rd) :=
  show encode _ &&& 0xFF0FFFFF = 0x88000000 from
  of_fields _ ⟨0x3F, 3, 0, 15, 0xFFFF⟩ ⟨0x22, 0, 0, 0, 0x0000⟩ rfl (by decide) (by decide)
    (by simp [encodeFields, encRd]) (by simp [encodeFields, encRd]) (by simp [encodeFields, encRd])
    (by simp [encodeFields, encRd]) (by simp [encodeFields, encRd])

theorem etrig (vi : VoiceIdx) : Statement (.etrig vi) :=
  show encode _ &&& 0xFFFFFFF8 = 0x90000000 from
  of_fields _ ⟨0x3F, 3, 15, 15, 0xFFF8⟩ ⟨0x24, 0, 0, 0, 0x0000⟩ rfl (by decide) (by decide)
    (by simp [encodeFields, encV]) (by simp [encodeFields, encV]) (by simp [encodeFields, encV])
    (by simp [encodeFields, encV]) (immV vi)

theorem eoff (vi : VoiceIdx) : Statement (.eoff vi) :=
  show encode _ &&& 0xFFFFFFF8 = 0x94000000 from
  of_fields _ ⟨0x3F, 3, 15, 15, 0xFFF8⟩ ⟨0x25, 0, 0, 0, 0x0000⟩ rfl (by decide) (by decide)
    (by simp [encodeFields, encV]) (by simp [encodeFields, encV]) (by simp [encodeFields, encV])
    (by simp [encodeFields, encV]) (immV vi)

theorem eval (rd : Reg) (vi : VoiceIdx) : Statement (.eval rd vi) :=
  show encode _ &&& 0xFF0FFFF8 = 0x98000000 from
  of_fields _ ⟨0x3F, 3, 0, 15, 0xFFF8⟩ ⟨0x26, 0, 0, 0, 0x0000⟩ rfl (by decide) (by decide)
    (by simp [encodeFields, encVRd]) (by simp [encodeFields, encVRd]) (by simp [encodeFields, encVRd])
    (by simp [encodeFields, encVRd]) (immV vi)

theorem eadv (vi : VoiceIdx) : Statement (.eadv vi) :=
  show encode _ &&& 0xFFFFFFF8 = 0x9C000000 from
  of_fields _ ⟨0x3F, 3, 15, 15, 0xFFF8⟩ ⟨0x27, 0, 0, 0, 0x0000⟩ rfl (by decide) (by decide)
    (by simp [encodeFields, encV]) (by simp [encodeFields, encV]) (by simp [encodeFields, encV])
    (by simp [encodeFields, encV]) (immV vi)

theorem von (rs1 : Reg) (vi : VoiceIdx) : Statement (.von rs1 vi) :=
  show encode _ &&& 0xFFF0FFF8 = 0xA8000000 from
  of_fields _ ⟨0x3F, 3, 15, 0, 0xFFF8⟩ ⟨0x2A, 0, 0, 0, 0x0000⟩ rfl (by decide) (by decide)
    (by simp [encodeFields, encVRs1]) (by simp [encodeFields, encVRs1]) (by simp [encodeFields, encVRs1])
    (by simp [encodeFields, encVRs1]) (immV vi)

theorem voff (vi : VoiceIdx) : Statement (.voff vi) :=
  show encode _ &&& 0xFFFFFFF8 = 0xAC000000 from
  of_fields _ ⟨0x3F, 3, 15, 15, 0xFFF8⟩ ⟨0x2B, 0, 0, 0, 0x0000⟩ rfl (by decide) (by decide)
    (by simp [encodeFields, encV]) (by simp [encodeFields, encV]) (by simp [encodeFields, encV])
    (by simp [encodeFields, encV]) (immV vi)

theorem vslide (rs1 : Reg) (vi : VoiceIdx) : Statement (.vslide rs1 vi) :=
  show encode _ &&& 0xFFF0FFF8 = 0xB0000000 from
  of_fields _ ⟨0x3F, 3, 15, 0, 0xFFF8⟩ ⟨0x2C, 0, 0, 0, 0x0000⟩ rfl (by decide) (by decide)
    (by simp [encodeFields, encVRs1]) (by simp [encodeFields, encVRs1]) (by simp [encodeFields, encVRs1])
    (by simp [encodeFields, encVRs1]) (immV vi)

theorem vgetn (rd : Reg) (vi : VoiceIdx) : Statement (.vgetn rd vi) :=
  show encode _ &&& 0xFF0FFFF8 = 0xB4000000 from
  of_fields _ ⟨0x3F, 3, 0, 15, 0xFFF8⟩ ⟨0x2D, 0, 0, 0, 0x0000⟩ rfl (by decide) (by decide)
    (by simp [encodeFields, encVRd]) (by simp [encodeFields, encVRd]) (by simp [encodeFields, encVRd])
    (by simp [encodeFields, encVRd]) (immV vi)

theorem vphadv (rs1 : Reg) (vi : VoiceIdx) : Statement (.vphadv rs1 vi) :=
  show encode _ &&& 0xFFF0FFF8 = 0xBC000000 from
  of_fields _ ⟨0x3F, 3, 15, 0, 0xFFF8⟩ ⟨0x2F, 0, 0, 0, 0x0000⟩ rfl (by decide) (by decide)
    (by simp [encodeFields, encVRs1]) (by simp [encodeFields, encVRs1]) (by simp [encodeFields, encVRs1])
    (by simp [encodeFields, encVRs1]) (immV vi)

theorem noteon (rs1 rs2 rs3 : Reg) : Statement (.noteon rs1 rs2 rs3) :=
  show encode _ &&& 0xFF000FFF = 0xC0000000 from
  of_fields _ ⟨0x3F, 3, 0, 0, 0x0FFF⟩ ⟨0x30, 0, 0, 0, 0x0000⟩ rfl (by decide) (by decide)
    (by simp [encodeFields, encT]) (by simp [encodeFields, encT]) (by simp [encodeFields, encT])
    (by simp [encodeFields, encT]) (immR0 rs2)

theorem noteoff (rs1 rs2 : Reg) : Statement (.noteoff rs1 rs2) :=
  show encode _ &&& 0xFFF00FFF = 0xC4000000 from
  of_fields _ ⟨0x3F, 3, 15, 0, 0x0FFF⟩ ⟨0x31, 0, 0, 0, 0x0000⟩ rfl (by decide) (by decide)
    (by simp [encodeFields, encRs12]) (by simp [encodeFields, encRs12]) (by simp [encodeFields, encRs12])
    (by simp [encodeFields, encRs12]) (immR0 rs2)

theorem anoff : Statement (.anoff) :=
  show encode _ &&& 0xFFFFFFFF = 0xC8000000 from
  of_fields _ ⟨0x3F, 3, 15, 15, 0xFFFF⟩ ⟨0x32, 0, 0, 0, 0x0000⟩ rfl (by decide) (by decide)
    (by simp [encodeFields, encN1]) (by simp [encodeFields, encN1]) (by simp [encodeFields, encN1])
    (by simp [encodeFields, encN1]) (by simp [encodeFields, encN1])

theorem run (rd rs1 rs2 : Reg) : Statement (.run rd rs1 rs2) :=
  show encode _ &&& 0xFF000FFF = 0xCC000000 from
  of_fields _ ⟨0x3F, 3, 0, 0, 0x0FFF⟩ ⟨0x33, 0, 0, 0, 0x0000⟩ rfl (by decide) (by decide)
    (by simp [encodeFields, encR3]) (by simp [encodeFields, encR3]) (by simp [encodeFields, encR3])
    (by simp [encodeFields, encR3]) (immR0 rs2)

theorem lds (rd rs1 : Reg) (imm : BitVec 16) : Statement (.lds rd rs1 imm) :=
  show encode _ &&& 0xFF000000 = 0xE0000000 from
  of_fields _ ⟨0x3F, 3, 0, 0, 0x0000⟩ ⟨0x38, 0, 0, 0, 0x0000⟩ rfl (by decide) (by decide)
    (by simp [encodeFields, encI]) (by simp [encodeFields, encI]) (by simp [encodeFields, encI])
    (by simp [encodeFields, encI]) (by simp [encodeFields, encI])

theorem sts (rd rs1 : Reg) (imm : BitVec 16) : Statement (.sts rd rs1 imm) :=
  show encode _ &&& 0xFF000000 = 0xE4000000 from
  of_fields _ ⟨0x3F, 3, 0, 0, 0x0000⟩ ⟨0x39, 0, 0, 0, 0x0000⟩ rfl (by decide) (by decide)
    (by simp [encodeFields, encI]) (by simp [encodeFields, encI]) (by simp [encodeFields, encI])
    (by simp [encodeFields, encI]) (by simp [encodeFields, encI])

theorem ldb (rd rs1 : Reg) (imm : BitVec 16) : Statement (.ldb rd rs1 imm) :=
  show encode _ &&& 0xFF000000 = 0xE8000000 from
  of_fields _ ⟨0x3F, 3, 0, 0, 0x0000⟩ ⟨0x3A, 0, 0, 0, 0x0000⟩ rfl (by decide) (by decide)
    (by simp [encodeFields, encI]) (by simp [encodeFields, encI]) (by simp [encodeFields, encI])
    (by simp [encodeFields, encI]) (by simp [encodeFields, encI])

theorem stb (rd rs1 : Reg) (imm : BitVec 16) : Statement (.stb rd rs1 imm) :=
  show encode _ &&& 0xFF000000 = 0xEC000000 from
  of_fields _ ⟨0x3F, 3, 0, 0, 0x0000⟩ ⟨0x3B, 0, 0, 0, 0x0000⟩ rfl (by decide) (by decide)
    (by simp [encodeFields, encI]) (by simp [encodeFields, encI]) (by simp [encodeFields, encI])
    (by simp [encodeFields, encI]) (by simp [encodeFields, encI])

end Sys2Proof.Laws.TableRow
end

