-- ==== Sys2Proof/Laws/Words.lean ====
section
/-! SUPPORT. The words that claims write out field by field are the words that the encoder makes. -/

namespace Sys2Proof.Machine

open Sys2Proof

theorem wordI_eq (op : BitVec 6) (w : BitVec 2) (rd rs1 : Reg) (imm : BitVec 16) :
    wordI op w rd rs1 imm = (⟨op, w, rd, rs1, imm⟩ : Fields).toWord := rfl

theorem wordR_eq (op : BitVec 6) (w : BitVec 2) (rd rs1 rs2 : Reg) (m : BitVec 2) :
    wordR op w rd rs1 rs2 m = (⟨op, w, rd, rs1, immR rs2 m⟩ : Fields).toWord := by
  ext i hi
  simp only [wordR, Fields.toWord, immR]
  grind

theorem wordV_eq (op : BitVec 6) (rd rs1 : Reg) (vi : VoiceIdx) :
    wordV op rd rs1 vi = (⟨op, 0, rd, rs1, 0#13 ++ vi⟩ : Fields).toWord := by
  ext i hi
  simp only [wordV, Fields.toWord]
  grind

theorem modeBits_eq (m : Ovf) : modeBits m = ovfBits m := by cases m <;> rfl

end Sys2Proof.Machine
end

