-- ==== Sys2Proof/Machine/TestConfig.lean ====
section
/-! DEFINITION. The test configuration TC (00_scope.md R7) with the default ROM words (41_tables.md R150): a
fixture for tests, no claim about the hardware. Log 16. -/

namespace Sys2Proof.Machine

open Sys2Proof

/-- TC's SIN_ROM over the first quarter cycle (41_tables.md R150), entries 0 to 63. -/
def tcSine0 : List Int := [
  0, 205882, 411733, 617523, 823219, 1028791, 1234209, 1439440, 1644455, 1849222, 2053710, 2257890,
  2461729, 2665197, 2868265, 3070900, 3273072, 3474752, 3675909, 3876512, 4076531, 4275936,
  4474698, 4672785, 4870169, 5066819, 5262706, 5457801, 5652074, 5845495, 6038037, 6229669,
  6420363, 6610090, 6798821, 6986529, 7173184, 7358759, 7543226, 7726557, 7908725, 8089701,
  8269459, 8447972, 8625213, 8801154, 8975771, 9149035, 9320922, 9491405, 9660458, 9828057,
  9994176, 10158790, 10321873, 10483403, 10643353, 10801701, 10958422, 11113493, 11266890,
  11418590, 11568571, 11716809]

/-- TC's SIN_ROM over the first quarter cycle (41_tables.md R150), entries 64 to 127. -/
def tcSine1 : List Int := [
  11863283, 12007971, 12150850, 12291899, 12431097, 12568423, 12703856, 12837376, 12968963,
  13098597, 13226258, 13351928, 13475586, 13597215, 13716797, 13834313, 13949745, 14063077,
  14174291, 14283370, 14390298, 14495059, 14597637, 14698017, 14796184, 14892122, 14985817,
  15077256, 15166424, 15253308, 15337895, 15420172, 15500126, 15577747, 15653022, 15725939,
  15796488, 15864658, 15930439, 15993821, 16054795, 16113350, 16169479, 16223173, 16274424,
  16323224, 16369565, 16413442, 16454846, 16493773, 16530216, 16564169, 16595628, 16624588,
  16651044, 16674992, 16696429, 16715352, 16731757, 16745643, 16757007, 16765847, 16772163,
  16775953]

/-- TC's SIN_ROM over the first quarter cycle (41_tables.md R150), entries 128 to 128. -/
def tcSine2 : List Int := [
  16777216]

/-- TC's SIN_ROM over the first quarter cycle (41_tables.md R150), whole. -/
def tcSine : List Int := tcSine0 ++ tcSine1 ++ tcSine2

/-- TC's SIN_ROM[i] from the quarter cycle, by the symmetries of 41_tables.md R150. -/
def tcSineAt (i : Nat) : Int :=
  if i ≤ 128 then tcSine.getD i 0
  else if i ≤ 256 then tcSine.getD (256 - i) 0
  else if i ≤ 384 then -tcSine.getD (i - 256) 0
  else -tcSine.getD (512 - i) 0

/-- TC's EXP2_ROM (41_tables.md R150), entries 0 to 63. -/
def tcExp0 : List Int := [
  0, 22728, 45488, 68278, 91099, 113950, 136833, 159747, 182692, 205668, 228675, 251713, 274783,
  297883, 321015, 344178, 367373, 390599, 413857, 437146, 460467, 483819, 507203, 530618, 554066,
  577545, 601055, 624598, 648173, 671779, 695418, 719088, 742791, 766526, 790292, 814091, 837923,
  861786, 885682, 909610, 933571, 957564, 981590, 1005648, 1029739, 1053862, 1078019, 1102207,
  1126429, 1150683, 1174971, 1199291, 1223644, 1248030, 1272449, 1296902, 1321387, 1345905,
  1370457, 1395042, 1419661, 1444312, 1468997, 1493716]

/-- TC's EXP2_ROM (41_tables.md R150), entries 64 to 127. -/
def tcExp1 : List Int := [
  1518468, 1543253, 1568072, 1592925, 1617812, 1642732, 1667686, 1692673, 1717695, 1742750,
  1767840, 1792963, 1818120, 1843312, 1868537, 1893797, 1919091, 1944419, 1969782, 1995179,
  2020610, 2046076, 2071576, 2097111, 2122681, 2148285, 2173923, 2199597, 2225305, 2251048,
  2276826, 2302639, 2328487, 2354370, 2380288, 2406241, 2432229, 2458252, 2484311, 2510405,
  2536534, 2562699, 2588899, 2615135, 2641406, 2667713, 2694055, 2720433, 2746847, 2773297,
  2799782, 2826304, 2852861, 2879454, 2906084, 2932749, 2959450, 2986188, 3012962, 3039772,
  3066619, 3093501, 3120421, 3147376]

/-- TC's EXP2_ROM (41_tables.md R150), entries 128 to 191. -/
def tcExp2 : List Int := [
  3174369, 3201397, 3228463, 3255565, 3282704, 3309879, 3337092, 3364341, 3391627, 3418950,
  3446310, 3473708, 3501142, 3528613, 3556122, 3583668, 3611251, 3638872, 3666530, 3694226,
  3721959, 3749729, 3777538, 3805384, 3833267, 3861189, 3889148, 3917145, 3945180, 3973253,
  4001364, 4029513, 4057701, 4085926, 4114190, 4142492, 4170832, 4199211, 4227628, 4256084,
  4284578, 4313111, 4341682, 4370293, 4398942, 4427629, 4456356, 4485122, 4513926, 4542770,
  4571652, 4600574, 4629535, 4658535, 4687574, 4716653, 4745771, 4774929, 4804126, 4833363,
  4862639, 4891955, 4921311, 4950706]

/-- TC's EXP2_ROM (41_tables.md R150), entries 192 to 255. -/
def tcExp3 : List Int := [
  4980141, 5009616, 5039132, 5068687, 5098282, 5127917, 5157592, 5187308, 5217063, 5246860,
  5276696, 5306573, 5336490, 5366448, 5396447, 5426486, 5456565, 5486686, 5516847, 5547050,
  5577293, 5607577, 5637902, 5668268, 5698675, 5729124, 5759614, 5790145, 5820717, 5851331,
  5881986, 5912683, 5943422, 5974202, 6005024, 6035887, 6066793, 6097740, 6128729, 6159760,
  6190833, 6221949, 6253106, 6284306, 6315548, 6346832, 6378158, 6409527, 6440939, 6472393,
  6503890, 6535429, 6567011, 6598636, 6630304, 6662015, 6693768, 6725565, 6757404, 6789287,
  6821213, 6853183, 6885195, 6917251]

/-- TC's EXP2_ROM (41_tables.md R150), entries 256 to 319. -/
def tcExp4 : List Int := [
  6949350, 6981493, 7013680, 7045910, 7078183, 7110501, 7142862, 7175267, 7207716, 7240209,
  7272746, 7305326, 7337952, 7370621, 7403334, 7436092, 7468895, 7501741, 7534632, 7567568,
  7600549, 7633574, 7666643, 7699758, 7732917, 7766122, 7799371, 7832665, 7866005, 7899390,
  7932820, 7966295, 7999815, 8033381, 8066993, 8100650, 8134352, 8168100, 8201894, 8235734,
  8269619, 8303551, 8337528, 8371552, 8405621, 8439737, 8473899, 8508107, 8542362, 8576663,
  8611010, 8645404, 8679844, 8714332, 8748865, 8783446, 8818074, 8852748, 8887470, 8922238,
  8957054, 8991916, 9026826, 9061784]

/-- TC's EXP2_ROM (41_tables.md R150), entries 320 to 383. -/
def tcExp5 : List Int := [
  9096788, 9131840, 9166940, 9202087, 9237281, 9272524, 9307814, 9343152, 9378538, 9413971,
  9449453, 9484983, 9520561, 9556187, 9591861, 9627584, 9663355, 9699175, 9735043, 9770959,
  9806925, 9842939, 9879002, 9915113, 9951274, 9987484, 10023742, 10060050, 10096407, 10132813,
  10169269, 10205774, 10242328, 10278932, 10315586, 10352289, 10389042, 10425844, 10462697,
  10499599, 10536552, 10573554, 10610607, 10647710, 10684863, 10722066, 10759320, 10796624,
  10833979, 10871385, 10908841, 10946348, 10983905, 11021514, 11059173, 11096884, 11134645,
  11172458, 11210322, 11248237, 11286204, 11324222, 11362292, 11400413]

/-- TC's EXP2_ROM (41_tables.md R150), entries 384 to 447. -/
def tcExp6 : List Int := [
  11438586, 11476810, 11515086, 11553415, 11591795, 11630227, 11668711, 11707247, 11745836,
  11784476, 11823169, 11861915, 11900713, 11939563, 11978467, 12017423, 12056431, 12095493,
  12134607, 12173775, 12212995, 12252269, 12291595, 12330976, 12370409, 12409896, 12449436,
  12489030, 12528678, 12568379, 12608134, 12647943, 12687806, 12727723, 12767694, 12807719,
  12847798, 12887932, 12928120, 12968362, 13008659, 13049010, 13089417, 13129878, 13170393,
  13210964, 13251589, 13292270, 13333006, 13373797, 13414643, 13455544, 13496501, 13537514,
  13578582, 13619705, 13660885, 13702120, 13743411, 13784758, 13826161, 13867620, 13909135,
  13950706]

/-- TC's EXP2_ROM (41_tables.md R150), entries 448 to 511. -/
def tcExp7 : List Int := [
  13992334, 14034018, 14075759, 14117556, 14159409, 14201320, 14243287, 14285311, 14327392,
  14369530, 14411725, 14453978, 14496287, 14538654, 14581078, 14623560, 14666099, 14708696,
  14751351, 14794063, 14836833, 14879661, 14922548, 14965492, 15008494, 15051555, 15094674,
  15137852, 15181088, 15224382, 15267735, 15311147, 15354618, 15398148, 15441736, 15485384,
  15529091, 15572857, 15616682, 15660567, 15704511, 15748515, 15792578, 15836701, 15880883,
  15925126, 15969429, 16013791, 16058214, 16102697, 16147240, 16191843, 16236507, 16281231,
  16326016, 16370862, 16415768, 16460735, 16505763, 16550853, 16596003, 16641214, 16686487,
  16731821]

/-- TC's EXP2_ROM (41_tables.md R150), entries 512 to 512. -/
def tcExp8 : List Int := [
  16777216]

/-- TC's EXP2_ROM (41_tables.md R150), whole. -/
def tcExp : List Int := tcExp0 ++ tcExp1 ++ tcExp2 ++ tcExp3 ++ tcExp4 ++ tcExp5 ++ tcExp6 ++ tcExp7 ++ tcExp8

/-- TC's NOTE_ROM (41_tables.md R150), entries 0 to 63. -/
def tcNote0 : List Int := [
  535809, 567670, 601425, 637188, 675077, 715219, 757749, 802807, 850544, 901120, 954703, 1011473,
  1071618, 1135340, 1202851, 1274376, 1350154, 1430439, 1515497, 1605613, 1701088, 1802240,
  1909407, 2022946, 2143237, 2270680, 2405702, 2548752, 2700309, 2860878, 3030994, 3211227,
  3402176, 3604480, 3818814, 4045892, 4286473, 4541360, 4811404, 5097505, 5400618, 5721755,
  6061989, 6422453, 6804352, 7208960, 7637627, 8091784, 8572947, 9082720, 9622807, 10195009,
  10801236, 11443511, 12123977, 12844906, 13608704, 14417920, 15275254, 16183568, 17145893,
  18165441, 19245614, 20390018]

/-- TC's NOTE_ROM (41_tables.md R150), entries 64 to 127. -/
def tcNote1 : List Int := [
  21602472, 22887021, 24247954, 25689813, 27217409, 28835840, 30550508, 32367136, 34291786,
  36330882, 38491228, 40780036, 43204943, 45774043, 48495909, 51379626, 54434817, 57671680,
  61101017, 64734272, 68583572, 72661764, 76982457, 81560072, 86409886, 91548086, 96991818,
  102759252, 108869635, 115343360, 122202033, 129468544, 137167144, 145323527, 153964914,
  163120144, 172819773, 183096171, 193983636, 205518503, 217739269, 230686720, 244404066,
  258937088, 274334289, 290647054, 307929828, 326240288, 345639545, 366192342, 387967272,
  411037006, 435478539, 461373440, 488808132, 517874176, 548668578, 581294109, 615859655,
  652480576, 691279090, 732384684, 775934544, 822074013]

/-- TC's NOTE_ROM (41_tables.md R150), whole. -/
def tcNote : List Int := tcNote0 ++ tcNote1

/-- A ROM of n words with the given entries. -/
def romOf (n : Nat) (f : Nat → Int) : Vector Word n :=
  ⟨((List.range n).map fun i => toWord (f i)).toArray, by simp⟩

/-- The test configuration TC (00_scope.md R7). -/
def tc : Config where
  fS := 24
  fH := 16
  fQ := 8
  sinRom := romOf 513 tcSineAt
  exp2Rom := romOf 513 fun i => tcExp.getD i 0
  noteRom := romOf 128 fun i => tcNote.getD i 0
  rngExtract := .fixture
  rngSeedReset := 1
  kLog10S := 55732705
  kLog10H := 217706
  k0002H := 13
  log2Fn := .fixture
  qc0 := 0x00010000
  qs1 := 0x00020000
  qs2 := 0x00100000
  envAdvance := .off
  envStep := 0x00001000
  voiceRender := .fixture
  songUnits := 48000
  bufWords := 256
  deviceId := 0
  interpProduct := .exactProduct

end Sys2Proof.Machine
end

