-- ==== Sys2Proof/Tests/Slice0.lean ====
section
/-! SUPPORT. The model's own tests: expected values come from 95_test_vectors.md or by hand from the rules. -/

namespace Sys2Proof.Tests

set_option Elab.async false

open Sys2Proof Sys2Proof.Machine

/-! Well-formedness. -/

/-- The one check: VON's quad may not pass r15 (30_encoding.md R85); D17. -/
theorem test_wf_refuses : (Instr.von 13 2).wf = false ∧ (Instr.von 15 0).wf = false ∧ (Instr.von 12 2).wf = true := by
  decide

/-- A quad that passes r15 has no word, and its bits are refused; V9. -/
theorem test_wf_refused_word : decode 0xA80D0000 = .error .quad ∧ decode 0xA80C0000 = .ok (.von 12 0) := by decide +kernel

/-! Decoding: for every command a word written out from its row of 30_encoding.md R88, with RD 4, RS1 5, RS2 6, RS3 7,
M SAT, IMM16 0x8003, a shift of 17, voice 3. -/

theorem test_decode_alu_1 :
  decode 0x04000000 = .ok (.nop) ∧
  decode 0x08408003 = .ok (.lil 4 0x8003) ∧
  decode 0x0C408003 = .ok (.lih 4 0x8003) ∧
  decode 0x10456400 = .ok (.add 4 5 6 .sat) ∧
  decode 0x14456400 = .ok (.sub 4 5 6 .sat) ∧
  decode 0x18458003 = .ok (.addi 4 5 0x8003) ∧
  decode 0x1C456400 = .ok (.mulS 4 5 6 .sat) ∧
  decode 0x1D456400 = .ok (.mulH 4 5 6 .sat) ∧
  decode 0x1E456400 = .ok (.mulQ 4 5 6 .sat) ∧
  decode 0x20456400 = .ok (.divS 4 5 6 .sat) ∧
  decode 0x21456400 = .ok (.divH 4 5 6 .sat) ∧
  decode 0x22456400 = .ok (.divQ 4 5 6 .sat) := by
  decide +kernel

theorem test_decode_alu_2 :
  decode 0x24456400 = .ok (.imul 4 5 6 .sat) ∧
  decode 0x28456400 = .ok (.idiv 4 5 6 .sat) ∧
  decode 0x2C456400 = .ok (.ash 4 5 6 .sat) ∧
  decode 0x30450011 = .ok (.shli 4 5 17) ∧
  decode 0x34450011 = .ok (.srai 4 5 17) ∧
  decode 0x38450011 = .ok (.srli 4 5 17) ∧
  decode 0x3C450000 = .ok (.floorS 4 5) ∧
  decode 0x3D450000 = .ok (.floorH 4 5) ∧
  decode 0x3E450000 = .ok (.floorQ 4 5) ∧
  decode 0x40450000 = .ok (.fractS 4 5) ∧
  decode 0x41450000 = .ok (.fractH 4 5) ∧
  decode 0x42450000 = .ok (.fractQ 4 5) := by
  decide +kernel

theorem test_decode_alu_3 :
  decode 0x44450000 = .ok (.sqrtS 4 5) ∧
  decode 0x45450000 = .ok (.sqrtH 4 5) ∧
  decode 0x46450000 = .ok (.sqrtQ 4 5) ∧
  decode 0x48450004 = .ok (.cvtSS 4 5 .sat) ∧
  decode 0x48450005 = .ok (.cvtSH 4 5 .sat) ∧
  decode 0x48450006 = .ok (.cvtSQ 4 5 .sat) ∧
  decode 0x49450004 = .ok (.cvtHS 4 5 .sat) ∧
  decode 0x49450005 = .ok (.cvtHH 4 5 .sat) ∧
  decode 0x49450006 = .ok (.cvtHQ 4 5 .sat) ∧
  decode 0x4A450004 = .ok (.cvtQS 4 5 .sat) ∧
  decode 0x4A450005 = .ok (.cvtQH 4 5 .sat) ∧
  decode 0x4A450006 = .ok (.cvtQQ 4 5 .sat) := by
  decide +kernel

theorem test_decode_phase :
  decode 0x4C456000 = .ok (.phaccS 4 5 6) ∧
  decode 0x4D456000 = .ok (.phaccH 4 5 6) ∧
  decode 0x4E456000 = .ok (.phaccQ 4 5 6) := by
  decide +kernel

theorem test_decode_tables_1 :
  decode 0x50450001 = .ok (.tliS 4 5 .exp2) ∧
  decode 0x51450001 = .ok (.tliH 4 5 .exp2) ∧
  decode 0x54450000 = .ok (.sinS 4 5) ∧
  decode 0x55450000 = .ok (.sinH 4 5) ∧
  decode 0x58450000 = .ok (.cosS 4 5) ∧
  decode 0x59450000 = .ok (.cosH 4 5) ∧
  decode 0x5C450400 = .ok (.exp2S 4 5 .sat) ∧
  decode 0x5D450400 = .ok (.exp2H 4 5 .sat) ∧
  decode 0x60450400 = .ok (.exp10S 4 5 .sat) ∧
  decode 0x61450400 = .ok (.exp10H 4 5 .sat) ∧
  decode 0x64450000 = .ok (.sq135S 4 5) ∧
  decode 0x65450000 = .ok (.sq135H 4 5) := by
  decide +kernel

theorem test_decode_tables_2 :
  decode 0x68450000 = .ok (.sq35S 4 5) ∧
  decode 0x69450000 = .ok (.sq35H 4 5) ∧
  decode 0x6C450000 = .ok (.ntof 4 5) ∧
  decode 0x70450000 = .ok (.fton 4 5) ∧
  decode 0x74450000 = .ok (.romrdSin 4 5) ∧
  decode 0x74450001 = .ok (.romrdExp2 4 5) ∧
  decode 0x74450002 = .ok (.romrdNote 4 5) := by
  decide +kernel

theorem test_decode_conversions :
  decode 0x78450010 = .ok (.db2g 4 5 .sat) ∧
  decode 0x78450011 = .ok (.g2db 4 5 .sat) ∧
  decode 0x78450012 = .ok (.ev2s 4 5 .sat) ∧
  decode 0x78450013 = .ok (.s2ev 4 5 .sat) ∧
  decode 0x78450014 = .ok (.vol2s 4 5 .sat) ∧
  decode 0x78450015 = .ok (.s2vol 4 5 .sat) ∧
  decode 0x78450016 = .ok (.p2b 4 5 .sat) ∧
  decode 0x78450017 = .ok (.p2f 4 5 .sat) ∧
  decode 0x78450018 = .ok (.p2q 4 5 .sat) ∧
  decode 0x78450019 = .ok (.p2st 4 5 .sat) := by
  decide +kernel

theorem test_decode_generator :
  decode 0x80400000 = .ok (.rand 4) ∧
  decode 0x84050000 = .ok (.rseed 5) ∧
  decode 0x88400000 = .ok (.rget 4) := by
  decide +kernel

theorem test_decode_envelope :
  decode 0x90000003 = .ok (.etrig 3) ∧
  decode 0x94000003 = .ok (.eoff 3) ∧
  decode 0x98400003 = .ok (.eval 4 3) ∧
  decode 0x9C000003 = .ok (.eadv 3) := by
  decide +kernel

theorem test_decode_voice :
  decode 0xA8050003 = .ok (.von 5 3) ∧
  decode 0xAC000003 = .ok (.voff 3) ∧
  decode 0xB0050003 = .ok (.vslide 5 3) ∧
  decode 0xB4400003 = .ok (.vgetn 4 3) ∧
  decode 0xBC050003 = .ok (.vphadv 5 3) := by
  decide +kernel

theorem test_decode_engine :
  decode 0xC0756000 = .ok (.noteon 5 6 7) ∧
  decode 0xC4056000 = .ok (.noteoff 5 6) ∧
  decode 0xC8000000 = .ok (.anoff) ∧
  decode 0xCC456000 = .ok (.run 4 5 6) := by
  decide +kernel

theorem test_decode_access :
  decode 0xE0458003 = .ok (.lds 4 5 0x8003) ∧
  decode 0xE4458003 = .ok (.sts 4 5 0x8003) ∧
  decode 0xE8458003 = .ok (.ldb 4 5 0x8003) ∧
  decode 0xEC458003 = .ok (.stb 4 5 0x8003) := by
  decide +kernel


/-- D1 to D6: the step of 30_encoding.md R87 that each illegal word fails. -/
theorem test_illegal_words_1 : decode 0x00000000 = .error .opcode ∧ decode 0x7C000000 = .error .opcode ∧
    decode 0x8C000000 = .error .opcode ∧ decode 0xFFFFFFFF = .error .opcode ∧ decode 0x11123000 = .error .width ∧
    decode 0x13123000 = .error .width ∧ decode 0x10123800 = .error .overflowMode ∧
    decode 0x10123001 = .error .mustBeZero ∧ decode 0x44123000 = .error .mustBeZero ∧
    decode 0x44120400 = .error .overflowMode := by
  decide +kernel

/-- The word decodes to no command. -/
def refused (w : Word) : Bool :=
  match decode w with
  | .ok _ => false
  | .error _ => true

/-- D8 to D22, N5, G17. -/
theorem test_illegal_words_2 : ([0x30120020, 0x48120003, 0x48120008, 0x48120010, 0x74120003, 0x52120000, 0x50120002,
    0x56120000, 0x6D120000, 0x04000001, 0xC8100000, 0x08110005, 0x80101000, 0x84120000, 0x90000008, 0x90100000, 0x98110000,
    0xAC008000, 0xC4112000, 0xCC123400, 0xE1100000, 0x7812000F, 0x78120040, 0x4C123400, 0xC0312001, 0x80120000] :
    List Word).all refused = true := by
  decide +kernel


/-! One step per command: the vectors of 95_test_vectors.md under TC (00_scope.md R7), named in the comments; where no
vector exists the value is computed by hand from the rule. -/

/-- Reset under TC with some registers set. -/
def regs (l : List (Reg × Word)) : State := l.foldl (fun s p => s.setReg p.1 p.2) (State.resetWith tc)

/-- The same with some state words written. -/
def words (l : List (Int × Word)) (s : State) : State :=
  l.foldl (fun s p => match s.writeState p.1 p.2 with | .ok t => t | .error _ => s) s

/-- The state after a delivered command word. -/
def after (w : Word) (s : State) : State :=
  match runCommand w s with
  | .next t => t
  | .fault _ => s
  | .refused _ => s

/-- The block goes on, with this register value and this STATUS.OV. -/
def gives (w : Word) (ins : List (Reg × Word)) (rd : Reg) (v : Word) (ov : Bool) : Bool :=
  (after w (regs ins)).reg rd == v && (after w (regs ins)).ov == ov && (after w (regs ins)).mode == .ready

/-- The block is FAULTED with this cause, and the registers are as before. -/
def faults (w : Word) (s : State) (c : BitVec 4) : Bool :=
  (after w s).mode == .faulted && (after w s).fcause == c && (after w s).faultcmd == w && (after w s).regs == s.regs &&
    (after w s).ov == s.ov

/-- A1, A3, A59. -/
theorem test_moves : gives 0x0810FFFB [] 1 0xFFFFFFFB false = true ∧ gives 0x0C100100 [(1, 0xABCD)] 1 0x0100ABCD false = true ∧
    gives 0x04000000 [(1, 7)] 1 7 false = true := by decide +kernel

/-- A5, A8, A12. -/
theorem test_add_sub : gives 0x18120001 [(2, 0x7FFFFFFF)] 1 0x80000000 true = true ∧
    gives 0x10123400 [(2, 0x7FFFFFFF), (3, 1)] 1 0x7FFFFFFF true = true ∧
    gives 0x14123400 [(2, 0), (3, 0x80000000)] 1 0x7FFFFFFF true = true := by decide +kernel

/-- A16, A20, A14, A15: MUL rounds toward minus infinity. -/
theorem test_mul : gives 0x1C123000 [(2, 0xFFFFFFFF), (3, 0x00800000)] 1 0xFFFFFFFF false = true ∧
    gives 0x1C123400 [(2, 0x80000000), (3, 0x7FFFFFFF)] 1 0x80000000 true = true ∧
    gives 0x1D456000 [(5, 0x00020000), (6, 0x00030000)] 4 0x00060000 false = true ∧
    gives 0x1E123000 [(2, 0xFFFFFE80), (3, 0x00000280)] 1 0xFFFFFC40 false = true := by decide +kernel

/-- A22, A24, A25; DIV.Q of 3.0 by 2.0. -/
theorem test_div : gives 0x20123000 [(2, 0xFF000000), (3, 0x03000000)] 1 0xFFAAAAAB false = true ∧
    gives 0x21123400 [(2, 0x00010000), (3, 1)] 1 0x7FFFFFFF true = true ∧
    gives 0x22123000 [(2, 0x300), (3, 0x200)] 1 0x180 false = true ∧
    faults 0x20123000 (regs [(1, 0x1234), (2, 0x01000000)]) 3 = true := by decide +kernel

/-- A27, A28, A31, A32. -/
theorem test_imul_idiv : gives 0x24123000 [(2, 0x00010000), (3, 0x00010000)] 1 0 true = true ∧
    gives 0x28123000 [(2, 0xFFFFFFF9), (3, 2)] 1 0xFFFFFFFD false = true ∧
    gives 0x28123400 [(2, 0x80000000), (3, 0xFFFFFFFF)] 1 0x7FFFFFFF true = true ∧
    faults 0x28123000 (regs [(2, 5)]) 3 = true := by decide +kernel

/-- A34, A36, A39, A40, A42. -/
theorem test_shifts : gives 0x2C123000 [(2, 0x00010000), (3, 0xF)] 1 0x80000000 true = true ∧
    gives 0x2C123000 [(2, 0xFFFFFFFB), (3, 0xFFFFFFD8)] 1 0xFFFFFFFF false = true ∧
    gives 0x3012001F [(2, 3)] 1 0x80000000 false = true ∧ gives 0x34120004 [(2, 0xFFFFFF00)] 1 0xFFFFFFF0 false = true ∧
    gives 0x38120004 [(2, 0xFFFFFF00)] 1 0x0FFFFFF0 false = true := by decide +kernel

/-- A43, A44, A46, A47; FLOOR.Q of 3.75, FRACT.H of -0.5. -/
theorem test_floor_fract : gives 0x3C120000 [(2, 0xFFC00000)] 1 0xFF000000 false = true ∧
    gives 0x3D120000 [(2, 0x0002C000)] 1 0x00020000 false = true ∧ gives 0x3E120000 [(2, 0x3C0)] 1 0x300 false = true ∧
    gives 0x40120000 [(2, 0xFFC00000)] 1 0x00C00000 false = true ∧
    gives 0x41120000 [(2, 0xFFFF8000)] 1 0x00008000 false = true ∧
    gives 0x42120000 [(2, 0x3C0)] 1 0xC0 false = true := by decide +kernel

/-- A50, A49, A52; SQRT.Q of 4.0. -/
theorem test_sqrt : gives 0x44120000 [(2, 0x7FFFFFFF)] 1 0x0B504000 false = true ∧
    gives 0x45120000 [(2, 0x00020000)] 1 0x00016A00 false = true ∧ gives 0x46120000 [(2, 0x400)] 1 0x200 false = true ∧
    faults 0x44120000 (regs [(2, 0xFFFFFFFF)]) 2 = true := by decide +kernel

/-- A54, A56, A57, A58; the other pairs on 1.5. -/
theorem test_cvt : gives 0x48320001 [(2, 0xFFFFFFFF)] 3 0xFFFFFFFF false = true ∧
    gives 0x49320004 [(2, 0x00C80000)] 3 0x7FFFFFFF true = true ∧
    gives 0x49320000 [(2, 0xFFFE8000)] 3 0xFE800000 false = true ∧
    gives 0x4A320001 [(2, 0x00075300)] 3 0x07530000 false = true ∧
    gives 0x48320000 [(2, 0x80000000)] 3 0x80000000 false = true ∧ gives 0x48320002 [(2, 0x01800000)] 3 0x180 false = true ∧
    gives 0x49320001 [(2, 0x80000000)] 3 0x80000000 false = true ∧ gives 0x49320002 [(2, 0x18000)] 3 0x180 false = true ∧
    gives 0x4A320000 [(2, 0x180)] 3 0x01800000 false = true ∧
    gives 0x4A320002 [(2, 0x80000000)] 3 0x80000000 false = true := by decide +kernel

/-- V13, V14, V15. -/
theorem test_phacc : gives 0x4C312000 [(1, 0x00400000), (2, 0xFF800000)] 3 0x00C00000 false = true ∧
    gives 0x4D312000 [(1, 0x00038000), (2, 0x0000C000)] 3 0x00004000 false = true ∧
    gives 0x4E312000 [(1, 0x7FFFFFFF), (2, 1)] 3 0 false = true := by decide +kernel

/-- T52, T53, T3. -/
theorem test_tli : gives 0x50120000 [(2, 0x4000)] 1 0x0001921D false = true ∧
    gives 0x50120001 [(2, 0x0002C000)] 1 0x0001E9CF false = true ∧
    gives 0x51120000 [(2, 0x80)] 1 0x00000324 false = true := by decide +kernel

/-- T6, T8, T10, T12, T13. -/
theorem test_sin_cos : gives 0x54210000 [(1, 0xFFC00000)] 2 0xFF000000 false = true ∧
    gives 0x54210000 [(1, 0x00155555)] 2 0x007FFF71 false = true ∧ gives 0x55210000 [(1, 0x2000)] 2 0x0000B504 false = true ∧
    gives 0x58210000 [(1, 0x7FFFFFFF)] 2 0x00FFFFFF false = true ∧
    gives 0x59210000 [(1, 0x4000)] 2 0 false = true := by decide +kernel

/-- T17, T20, T22, T26, T28. -/
theorem test_exp : gives 0x5C210000 [(1, 0xFF800000)] 2 0x00B504F3 false = true ∧
    gives 0x5C210400 [(1, 0x07000000)] 2 0x7FFFFFFF true = true ∧ gives 0x5D210000 [(1, 0x8000)] 2 0x00016A09 false = true ∧
    gives 0x60210000 [(1, 0x00800000)] 2 0x03298B10 false = true ∧
    gives 0x61210400 [(1, 0x00050000)] 2 0x7FFFFFFF true = true := by decide +kernel

/-- T30, T31, T32; SQ35.H of 0.25 is -1/3 + 1/5, each rounded toward zero. -/
theorem test_odd_harmonics : gives 0x64210000 [(1, 0x00200000)] 2 0x00CD27BE false = true ∧
    gives 0x65210000 [(1, 0x4000)] 2 0x0000DDDE false = true ∧ gives 0x68210000 [(1, 0x00400000)] 2 0xFFDDDDDE false = true ∧
    gives 0x69210000 [(1, 0x4000)] 2 0xFFFFDDDE false = true := by decide +kernel

/-- T35, T37, T38, T39. -/
theorem test_ntof : gives 0x6C210000 [(1, 0x00458000)] 2 0x01C514F6 false = true ∧
    gives 0x6C210000 [(1, 0x007F0000)] 2 0x30FFDA9D false = true ∧ faults 0x6C210000 (regs [(1, 0x007F0001)]) 4 = true ∧
    faults 0x6C210000 (regs [(1, 0xFFFF8000)]) 4 = true := by decide +kernel

/-- T42, T43, T45. -/
theorem test_fton : gives 0x70210000 [(1, 0x019F4E01)] 2 0x00390000 false = true ∧
    gives 0x70210000 [(1, 0x00082D01)] 2 0xFFFD0000 false = true ∧
    faults 0x70210000 (regs [(1, 0x1B7)]) 5 = true := by decide +kernel

/-- T47 to T51. -/
theorem test_romrd : gives 0x74120002 [(2, 0x45)] 1 0x01B80000 false = true ∧ gives 0x74120000 [(2, 0x200)] 1 0 false = true ∧
    gives 0x74120001 [(2, 0x200)] 1 0x01000000 false = true ∧ faults 0x74120002 (regs [(2, 0x80)]) 8 = true ∧
    faults 0x74120000 (regs [(2, 0xFFFFFFFF)]) 8 = true := by decide +kernel

/-- U4, U6, U11, U13. -/
theorem test_decibels : gives 0x78120000 [(2, 0x00030000)] 1 0x016A09E6 false = true ∧
    gives 0x78120010 [(2, 0x00C80000)] 1 0x7FFFFFFF true = true ∧ gives 0x78120001 [(2, 0x00800000)] 1 0xFFFA0000 false = true ∧
    faults 0x78120001 (regs []) 9 = true := by decide +kernel

/-- U15, U18, U22, U25. -/
theorem test_envelope_conversions : gives 0x78120002 [(2, 0x00020000)] 1 0x00039000 false = true ∧
    faults 0x78120002 (regs [(2, 0x8000)]) 2 = true ∧ gives 0x78120003 [(2, 0xFF000000)] 1 0x13890000 false = true ∧
    gives 0x78120013 [(2, 0x03000000)] 1 0x7FFFFFFF true = true := by decide +kernel

/-- U28, U30, U32, U34. -/
theorem test_volume_conversions : gives 0x78120004 [(2, 0xFFC00000)] 1 0x01000000 false = true ∧
    gives 0x78120014 [(2, 0x04000000)] 1 0x7FFFFFFF true = true ∧ gives 0x78120005 [(2, 0x00400000)] 1 0x00200000 false = true ∧
    faults 0x78120005 (regs [(2, 0xFFFFFFFF)]) 2 = true := by decide +kernel

/-- U36, U38, U40, U43, U48, U47, U50, U53. -/
theorem test_parameter_conversions : gives 0x78120006 [(2, 0x007FFFFF)] 1 0 false = true ∧
    gives 0x78120006 [(2, 0x07000000)] 1 1 false = true ∧ gives 0x78120007 [(2, 0x00800000)] 1 0x13970000 false = true ∧
    gives 0x78120017 [(2, 0x02000000)] 1 0x7FFFFFFF true = true ∧
    gives 0x78120008 [(2, 0x007FFFFF)] 1 0x0001FFFF false = true ∧
    gives 0x78120008 [(2, 0x01000000)] 1 0x000A0000 false = true ∧
    gives 0x78120009 [(2, 0x00800000)] 1 0x00753000 false = true ∧
    gives 0x78120009 [(2, 0x03000000)] 1 0x51430000 true = true := by decide +kernel

/-- N1 (the first draw), N4, M18. -/
theorem test_generator : gives 0x80100000 [] 1 0x015A4E35 false = true ∧ (after 0x80100000 (regs [])).seed = 0x015A4E35 ∧
    (after 0x84020000 (regs [(2, 0x12345678)])).seed = 0x12345678 ∧ gives 0x88300000 [] 3 1 false = true := by
  decide +kernel

/-- E4, E3: EVAL. -/
theorem test_eval :
    (after 0x98500000 (words [(0xC0, 1), (0xC1, 0x00400000), (0xC3, 0x02000000), (0xC4, 0x00800000)] (regs []))).reg 5 =
      0x00A00000 ∧
    (after 0x98500000 (words [(0xC0, 0), (0xC1, 0x64000000), (0xC2, 0x02000000)] (regs []))).ov = true := by
  decide +kernel

/-- E12, E13: EOFF and ETRIG. -/
theorem test_eoff_etrig :
    ((after 0x94000000 (words [(0xC0, 1), (0xC1, 0x00400000), (0xC3, 0x02000000), (0xC4, 0x00800000)] (regs []))).env 0 =
      { stage := .release, position := 0, attackRate := 0, decayRate := 0x02000000, sustain := 0x00800000, releaseRate := 0,
        releaseValue := 0x00A00000 }) ∧
    ((after 0x90000000 (words [(0xC0, 3), (0xC1, 0x00400000), (0xC6, 0x00800000)] (regs []))).env 0 =
      { stage := .attack, position := 0, attackRate := 0, decayRate := 0, sustain := 0, releaseRate := 0,
        releaseValue := 0x00800000 }) := by
  decide +kernel

/-- E14, E16: EADV. -/
theorem test_eadv :
    (after 0x9C000000 (words [(0xC0, 0), (0xC1, 0x00400000)] (regs []))).readState 0xC1 = some 0x00400000 ∧
    (after 0x9C000000 (words [(0xC0, 0), (0xC1, 0x00FFF000), (0xC2, 0x01000000)]
      (State.resetWith { tc with envAdvance := .step }))).readState 0xC0 = some 1 := by
  decide +kernel

/-- V1, V4: VON and VOFF. -/
theorem test_von_voff :
    (after 0xA8040002 (words [(0x0E, 0x400)] (regs [(4, 0x003C0000), (5, 100), (6, 0x4000), (7, 0xFF800000)]))).voice 2 =
      { isOn := true, note := 0x003C0000, detune := 0x4000, pan := 0xFF800000, vibPhase := 0, slideTime := 0x400,
        slideActive := false, slideDelta := 0, slideRemaining := 0, destNote := 0x003C0000, currentNote := 0x003C0000,
        oscPhase := 0 } ∧
    (after 0xAC000002 (words [(0x60, 1), (0x61, 5)] (regs []))).readState 0x60 = some 0 := by
  decide +kernel

/-- V2, V3 (the fourth call): VSLIDE and VGETN. -/
theorem test_vslide_vgetn :
    (after 0xB0080002 (words [(0x65, 0x400), (0x61, 0x003C0000), (0x6A, 0x003C0000)] (regs [(8, 0x00480000)]))).readState 0x67 =
      some 0x00030000 ∧
    (after 0xB4900002 (words [(0x66, 1), (0x67, 0x00030000), (0x68, 1), (0x69, 0x00480000), (0x6A, 0x00450000)]
      (regs []))).reg 9 = 0x00480000 := by
  decide +kernel

/-- V11: VPHADV. -/
theorem test_vphadv :
    (after 0xBC030000 (words [(0x44, 0x00400000)] (regs [(3, 0xFF800000)]))).readState 0x44 = some 0x00C00000 := by
  decide +kernel

/-- G1 (the third NOTEON into a queue of two), and NOTEOFF into the first slot. -/
theorem test_noteon_noteoff :
    ((after 0xC0312000 (words [(0x20, 1), (0x24, 1)] (regs [(1, 0x003E0000), (2, 100), (3, 2)]))).event 2 =
      { kind := .noteOn, delta := 2, note := 0x003E0000, velocity := 100 }) ∧
    ((after 0xC4012000 (regs [(1, 0x003C0000), (2, 5)])).event 0 =
      { kind := .noteOff, delta := 5, note := 0x003C0000, velocity := 0 }) := by
  decide +kernel

/-- G16: ANOFF keeps the voice's note. -/
theorem test_anoff :
    (after 0xC8000000 (words [(0x40, 1), (0x41, 0x003C0000), (0x20, 1), (0x14, 4)] (regs []))).readState 0x41 =
      some 0x003C0000 ∧
    (after 0xC8000000 (words [(0x40, 1), (0x20, 1), (0x14, 4)] (regs []))).readState 0x14 = some 0 := by
  decide +kernel

/-- G2, G3: RUN's device errors. -/
theorem test_run_device_errors : (after 0xCC456000 (regs [(4, 0x1111)])).readState 0 = some 0x00000012 ∧
    (after 0xCC456000 (regs [(6, 0x004000C8)])).readState 0 = some 0x00000022 := by decide +kernel

/-- G14: RUN adds a voice into BUF, saturating; the song position wraps modulo 2^32 (R260). -/
theorem test_run :
    (after 0xCC456000 ((words [(0x40, 1), (0x41, 0x00450000), (0x4A, 0x00450000)] (regs [(6, 0x00010000)])).bufWrite 0
      0x7FFFFF00)).bufRead 0 = 0x7FFFFFFF ∧
    (after 0xCC456000 (regs [(5, 0xFFFFFFFF), (6, 0x00010000)])).reg 4 = 0 := by
  decide +kernel

/-- M2, M7, M9. -/
theorem test_lds :
    (after 0xE0100000 { regs [] with ov := true, err := true, ecode := 2 }).reg 1 = 0x23 ∧
    (after 0xE0100003 (regs [])).reg 1 = 0x00081018 ∧ faults 0xE010004C (regs []) 6 = true ∧
    faults 0xE010FFFF (regs []) 6 = true := by
  decide +kernel

/-- M12, M15, M16. -/
theorem test_sts : faults 0xE4200020 (regs [(2, 3)]) 7 = true ∧ faults 0xE4200005 (regs [(2, 9)]) 6 = true ∧
    (after 0xE4200020 (regs [(2, 2)])).readState 0x20 = some 2 ∧
    (after 0xE4200000 { regs [(2, 3)] with ov := true, err := true, ecode := 1 }).readState 0 = some 0x10 := by
  decide +kernel

/-- M20, M21, M23, M24. -/
theorem test_ldb_stb : (after 0xE81000FF ((regs []).bufWrite 255 0xABC)).reg 1 = 0xABC ∧
    faults 0xE8100100 (regs []) 6 = true ∧ (after 0xEC027FFF (regs [(2, 0xFFFF80FF), (0, 7)])).bufRead 254 = 7 ∧
    faults 0xEC128000 (regs [(2, 0x7FFFFFFF)]) 6 = true := by
  decide +kernel

/-- D1 and D23: an illegal word faults, and in FAULTED a command is discarded. -/
theorem test_illegal_and_faulted : faults 0x00000000 (regs []) 1 = true ∧
    (after 0x08100005 (after 0x00000000 (regs []))).reg 1 = 0 ∧
    (after 0x08100005 (after 0x00000000 (regs []))).faultcmd = 0 := by
  decide +kernel

/-! A step. -/

/-- A step from reset runs the delivered command, whatever the configuration. -/
theorem test_step_runs_delivered : ∃ t, step (State.reset.withFetchWord 32 0x0810FFFB) = .next t ∧ t.reg 1 = 0xFFFFFFFB :=
  ⟨_, rfl, by decide +kernel⟩

/-- With nothing pending the block keeps its state. -/
theorem test_step_idle : step State.reset = .next State.reset := rfl

/-- The bits of a table row are read as one word. -/
theorem test_table_word : decodeTableWord 32 0x10123400 = some (.add 1 2 3 .sat) ∧ decodeTableWord 32 0 = none := by
  decide +kernel

/-- A word stands in memory low byte first (20_memory.md R62). -/
theorem test_bytes : decodeBytes [0x00, 0x34, 0x12, 0x10, 0xFF] = .ok (.add 1 2 3 .sat, [0xFF]) ∧
    encodeBytes (.add 1 2 3 .sat) = [0x00, 0x34, 0x12, 0x10] := by
  decide +kernel

/-! Events and rendering inside a RUN, by hand from 46_engine.md R254, R255, R256, R262. -/

/-- TC in mode STEP, r6 = a block of two samples, voices 0 and 2 on with notes 69.0 and 1.0, envelope 2 in Attack. -/
def twoVoices : State :=
  words [(0x40, 1), (0x4A, 0x00450000), (0x60, 1), (0x6A, 0x00010000), (0xD0, 0)]
    ((State.resetWith { tc with envAdvance := .step }).setReg 6 0x00020000)

/-- Two voices add up in each word of the block, and the envelope of a voice that is on advances once a sample (R262,
44_envelope.md R217). RUN is 0xCC406000, run r4, r0, r6. -/
theorem test_run_two_voices :
    let t := after 0xCC406000 ((twoVoices.bufWrite 0 0).bufWrite 1 0)
    t.bufRead 0 = 0x00004600 ∧ t.bufRead 1 = 0x00004600 ∧ (t.env 2).position = 0x00002000 ∧
      (t.env 0).position = 0 := by
  decide +kernel

/-- A note-off in a lower slot releases before a note-on of the same sample claims (R255). -/
theorem test_run_fires_in_slot_order :
    let t := after 0xCC406000 (words [(0x50, 1), (0x51, 5), (0x20, 2), (0x22, 5), (0x24, 1), (0x26, 5)]
      (regs [(6, 0x00010000)]))
    (t.voice 0).isOn = true ∧ (t.voice 1).isOn = false ∧ (t.event 0).kind = .free ∧ (t.event 1).kind = .free := by
  decide +kernel

/-- The other way round the note-off takes the voice that the note-on has just claimed (R255). -/
theorem test_run_fires_off_after_on :
    let t := after 0xCC406000 (words [(0x20, 1), (0x22, 5), (0x24, 2), (0x26, 5)] (regs [(6, 0x00010000)]))
    (t.voice 0).isOn = false ∧ (t.voice 0).note = 5 := by
  decide +kernel

/-- A note-on with DELTA 1 sounds from sample 1 on (R254). -/
theorem test_run_is_sample_accurate :
    let t := after 0xCC406000 (((words [(0x20, 1), (0x21, 1), (0x22, 0x00450000)] (regs [(6, 0x00020000)])).bufWrite 0 0).bufWrite 1 0)
    t.bufRead 0 = 0 ∧ t.bufRead 1 = 0x00004500 ∧ (t.event 0).kind = .free := by
  decide +kernel

/-- PAN_SPREAD -2^31 and one voice: f = 0, so the pan 2^31 saturates and sets OV (R256). -/
theorem test_allocate_pan_saturates :
    let t := (words [(0x00A, 0x80000000)] (regs [])).allocate 5 0
    t.ov = true ∧ (t.voice 0).pan = 0x7FFFFFFF ∧ (regs []).ov = false := by
  decide +kernel

/-! Witnesses: for every statement of Certificates/Slice0/Obligations.lean with hypotheses, states and operands that meet
them, each clause at a boundary of its range. -/

/-- A legal configuration: FloorAndFraction, TableLookupSineCosine, PhaseAccumulators. -/
theorem test_hyp_legal : (regs []).cfg.legal = true := by decide +kernel

theorem test_hyp_EncodedCommandDecodesBack : (Instr.von 12 7).wf = true := by decide

theorem test_hyp_DecodedWordIsTheCommandsWord : decode 0xA80C0007 = .ok (.von 12 7) := by decide +kernel

theorem test_hyp_IllegalWordsFault :
    (0x7C000000 : Word).extractLsb' 26 6 = 0x1F ∧ (0x13123000 : Word).extractLsb' 24 2 = 0b11 ∧
    ((0x7812000A : Word).extractLsb' 26 6 = 0x1E ∧ ((0x7812000A : Word).extractLsb' 0 4).toNat = 10) ∧
    ((0xA80D0000 : Word).extractLsb' 26 6 = 0x2A ∧ ((0xA80D0000 : Word).extractLsb' 16 4).toNat = 13) ∧
    ((0x10123800 : Word).extractLsb' 26 6 = 0x04 ∧ ((0x10123800 : Word).extractLsb' 10 2).toNat = 2) ∧
    ((0x48120003 : Word).extractLsb' 26 6 = 0x12 ∧ (0x48120003 : Word).extractLsb' 0 2 = 0b11) ∧
    ((0x74120003 : Word).extractLsb' 26 6 = 0x1D ∧ (0x74120003 : Word).extractLsb' 0 2 = 0b11) ∧
    (regs []).mode = .ready ∧ decode 0 = .error .opcode := by
  decide +kernel

theorem test_hyp_Divide : (regs []).x 3 = 0 ∧ (regs [(3, 0xFFFFFFFF)]).x 3 ≠ 0 := by decide +kernel

theorem test_hyp_ArithmeticShift : 0 ≤ (regs []).x 3 ∧ (regs [(3, 0xFFFFFFFF)]).x 3 < 0 := by decide +kernel

theorem test_hyp_SquareRoot :
    ((regs [(2, 0xFFFFFFFF)]).cfg.legal = true ∧ (regs [(2, 0xFFFFFFFF)]).x 2 < 0) ∧
    (regs []).cfg.legal = true ∧ 0 ≤ (regs []).x 2 := by
  decide +kernel

theorem test_hyp_WidthConversion : frac tc .half ≤ frac tc .half ∧ frac tc .half ≤ frac tc .sample ∧
    frac tc .half < frac tc .sample := by decide

/-- TC with INTERP_PRODUCT = WRAP32. -/
def tcWrap : Config := { tc with interpProduct := .wrapProduct }

theorem test_hyp_InterpolationPrimitive : tc.legal = true ∧ tc.interpProduct = .exactProduct ∧ tcWrap.legal = true ∧
    tcWrap.interpProduct = .wrapProduct := by decide +kernel

/-- n = 0, n = 30 - F_S and n = -F_S - 1. -/
theorem test_hyp_Exponentials : (regs []).x 1 = 0 * 2 ^ 24 ∧
    ((regs [(1, 0x06000000)]).x 1 = 6 * 2 ^ 24 ∧ (6 : Int) + (24 : Nat) ≤ 30) ∧
    ((regs [(1, 0xE7000000)]).x 1 = -25 * 2 ^ 24 ∧ (-25 : Int) + (24 : Nat) < 0) ∧
    (regs [(1, 0x06000000)]).cfg.legal = true ∧ (regs [(1, 0xE7000000)]).cfg.legal = true := by
  decide +kernel

/-- The phase 0.25: its third harmonic is at 0.75, its fifth at 1.25, and the sum fits. -/
theorem test_hyp_OddHarmonics : (regs [(1, 0x00400000)]).cfg.legal = true ∧
    Reduced .wrap (3 * (regs [(1, 0x00400000)]).x 1) 0x00C00000 ∧ Reduced .wrap (5 * (regs [(1, 0x00400000)]).x 1) 0x01400000 ∧
    interp tc .sin .sample 0x00400000 + (interp tc .sin .sample 0x00C00000).tdiv 3 +
      (interp tc .sin .sample 0x01400000).tdiv 5 = 0x00DDDDDE := by
  refine ⟨by decide +kernel, ?_, ?_, by decide +kernel⟩ <;> (unfold Reduced; decide +kernel)

theorem test_hyp_NoteAndFrequency :
    (regs [(1, 0xFFFFFFFF)]).x 1 = -1 * 2 ^ 16 + 65535 ∧ (regs [(1, 0x007F0001)]).x 1 = 127 * 2 ^ 16 + 1 ∧
    (regs [(1, 0x00800000)]).x 1 = 128 * 2 ^ 16 + 0 ∧ (regs []).x 1 = 0 * 2 ^ 16 + 0 ∧
    (regs [(1, 0x007F0000)]).x 1 = 127 * 2 ^ 16 + 0 ∧ (regs [(1, 0x007EFFFF)]).x 1 = 126 * 2 ^ 16 + 65535 ∧
    (regs [(1, 439)]).x 1 = 439 ∧ ((regs [(1, 439)]).x 1).fdiv 440 ≤ 0 ∧ 0 < ((regs [(1, 440)]).x 1).fdiv 440 ∧
    (regs [(1, 440)]).cfg.legal = true := by
  decide +kernel

theorem test_hyp_RomRead : (regs [(2, 0xFFFFFFFF)]).x 2 < 0 ∧ (tc.sinRom.toList.length : Int) ≤ (regs [(2, 513)]).x 2 ∧
    (0 ≤ (regs [(2, 512)]).x 2 ∧ (regs [(2, 512)]).x 2 < tc.sinRom.toList.length) ∧
    (tc.noteRom.toList.length : Int) ≤ (regs [(2, 128)]).x 2 ∧ (regs [(2, 127)]).x 2 < tc.noteRom.toList.length := by
  decide +kernel

theorem test_hyp_DecibelConversions : (regs []).x 2 ≤ 0 ∧ 0 < (regs [(2, 1)]).x 2 := by decide +kernel

/-- EV2S of 0.5 (a negative Sample) and of 1.0 (zero); S2VOL of -1 ulp and 0. -/
theorem test_hyp_RootConversions : (regs [(2, 0x8000)]).cfg.legal = true ∧
    ((((regs [(2, 0x8000)]).x 2 - 2 ^ 16) * sint tc.k0002H).fdiv (2 ^ 16) * 2 ^ (24 - 16) = -1792 ∧ Reduced .sat (-1792) (-1792)) ∧
    ((((regs [(2, 0x10000)]).x 2 - 2 ^ 16) * sint tc.k0002H).fdiv (2 ^ 16) * 2 ^ (24 - 16) = 0 ∧ Reduced .wrap 0 0) ∧
    (regs [(2, 0xFFFFFFFF)]).x 2 < 0 ∧ 0 ≤ (regs []).x 2 := by
  refine ⟨by decide +kernel, ⟨by decide +kernel, ?_⟩, ⟨by decide +kernel, ?_⟩, by decide +kernel⟩ <;> (unfold Reduced; decide)

theorem test_hyp_CurveConversions : (regs [(2, 0x007FFFFF)]).cfg.legal = true ∧ (regs [(2, 0x007FFFFF)]).x 2 < 2 ^ (24 - 1) ∧
    2 ^ (24 - 1) ≤ (regs [(2, 0x00800000)]).x 2 := by decide +kernel

theorem test_hyp_SeedUpdateIsBijective : nextSeed 0x80000000 = nextSeed 0x80000000 ∧ 32 ≤ 32 ∧ 2 ^ 31 ∣ uint 0x80000000 := by
  decide +kernel

/-- NOP is none of the commands that are left out: OnlyRandRseedStsWriteSeed, OnlyEnvelopeCommandsChangeEnvelopes,
StatusFlagsFrame, EngineStateFrame, OnlyStbAndRunWriteBuffer. -/
theorem test_hyp_frames : exec .nop (regs []) = .next (regs []) ∧ (∀ rd, Instr.nop ≠ .rand rd) ∧ (∀ rs1, Instr.nop ≠ .rseed rs1) ∧
    (∀ rd rs1 imm, Instr.nop ≠ .sts rd rs1 imm) ∧ (∀ vi, Instr.nop ≠ .etrig vi) ∧ (∀ vi, Instr.nop ≠ .eoff vi) ∧
    (∀ rd rs1 rs2, Instr.nop ≠ .run rd rs1 rs2) ∧ (∀ vi, Instr.nop ≠ .eadv vi) ∧ (∀ rd rs1 imm, Instr.nop ≠ .stb rd rs1 imm) ∧
    Instr.nop ≠ .anoff ∧ Instr.nop.mayOverflow = false := by
  refine ⟨rfl, ?_, ?_, ?_, ?_, ?_, ?_, ?_, ?_, ?_, rfl⟩ <;> simp

/-- EADV in mode NONE: OnlyEnvelopeCommandsChangeEnvelopes, its other clause. -/
theorem test_hyp_frames_off : (regs []).cfg.envAdvance = .off ∧ ∃ t, exec (.eadv 0) (regs []) = .next t := ⟨by decide +kernel, _, rfl⟩

/-- Sticky flags that are set: StatusFlagsFrame. -/
theorem test_hyp_StatusFlagsFrame : ({ regs [] with ov := true, err := true } : State).ov = true ∧
    exec .nop { regs [] with ov := true, err := true } = .next { regs [] with ov := true, err := true } := ⟨rfl, rfl⟩

theorem test_hyp_OnlyDestinationRegisterChanges : (∃ t, exec (.lil 1 5) (regs []) = .next t) ∧ (Instr.lil 1 5).dest ≠ some 2 :=
  ⟨⟨_, rfl⟩, by decide⟩

theorem test_hyp_EnvelopeValueByStage : ((words [(0xC0, 0)] (regs [])).env (slotOf 0)).stage = .attack ∧
    ((words [(0xC0, 1)] (regs [])).env (slotOf 0)).stage = .decay ∧ ((words [(0xC0, 2)] (regs [])).env (slotOf 0)).stage = .sustain ∧
    ((words [(0xF8, 3)] (regs [])).env (slotOf 7)).stage = .release ∧ ((regs []).env (slotOf 7)).stage = .finished := by
  decide +kernel

/-- TC with ENVELOPE_TIME_MODEL = STEP. -/
def tcStep : Config := { tc with envAdvance := .step }

/-- An envelope in Attack, one step short of 1.0, in mode STEP. -/
def stepEnv : State := words [(0xC0, 0), (0xC1, 0x00FFF000), (0xC2, 0x01000000)] (State.resetWith tcStep)

/-- Mode NONE; a stage that does not end; in mode STEP a stage that ends exactly at 1.0 and one that falls short. -/
theorem test_hyp_EnvelopeAdvance : (regs []).cfg.envAdvance = .off ∧ ((regs []).env (slotOf 0)).stage = .finished ∧
    stepEnv.cfg.envAdvance = .step ∧ (stepEnv.env (slotOf 0)).stage = .attack ∧
    (stepEnv.env (slotOf 0)).position = 0x00FFF000 ∧ (stepEnv.env (slotOf 0)).attackRate = 0x01000000 ∧
    (2 : Int) ^ 24 ≤ (0x01000000 * 0x01000000 : Int).fdiv (2 ^ 24) ∧ (0x00FFFFFF * 0x01000000 : Int).fdiv (2 ^ 24) < 2 ^ 24 ∧
    Reduced .sat (0x00FFF000 + 0x1000) 0x01000000 := by
  refine ⟨by decide +kernel, by decide +kernel, rfl, by decide +kernel, by decide +kernel, by decide +kernel, by decide +kernel,
    by decide +kernel, ?_⟩
  unfold Reduced; decide

theorem test_hyp_VoiceOnAndOff : (12 : Reg).toNat ≤ 12 := by decide

/-- T = 0 and T = 1; a voice that does not slide, one on its last sample, one before it. -/
theorem test_hyp_PortamentoCommands :
    (sint ((words [(0x65, 0xFF)] (regs [])).voice (slotOf 2)).slideTime).fdiv (2 ^ 8) = 0 ∧
    (sint ((words [(0x65, 0x100)] (regs [])).voice (slotOf 2)).slideTime).fdiv (2 ^ 8) = 1 ∧
    ((regs []).voice (slotOf 2)).slideActive = false ∧
    (((words [(0x66, 1), (0x68, 1)] (regs [])).voice (slotOf 2)).slideActive = true ∧
      uint ((words [(0x66, 1), (0x68, 1)] (regs [])).voice (slotOf 2)).slideRemaining ≤ 1) ∧
    (((words [(0x66, 1), (0x68, 2)] (regs [])).voice (slotOf 2)).slideActive = true ∧
      2 ≤ uint ((words [(0x66, 1), (0x68, 2)] (regs [])).voice (slotOf 2)).slideRemaining) := by
  decide +kernel

/-- A glide of one sample, after none of it; and one that lands at once. -/
theorem test_hyp_PortamentoIsExact : (sint ((words [(0x65, 0x100)] (regs [])).voice (slotOf 2)).slideTime).fdiv (2 ^ 8) = 1 ∧
    ((0 : Nat) : Int) < 1 ∧ (sint ((regs []).voice (slotOf 2)).slideTime).fdiv (2 ^ 8) = 0 := by
  decide +kernel

/-- A full queue, and one whose last slot alone is free. -/
theorem test_hyp_QueueEvents :
    (∀ k, ((words [(0x20, 1), (0x24, 1), (0x28, 1), (0x2C, 1), (0x30, 1), (0x34, 1), (0x38, 1), (0x3C, 1)] (regs [])).event k).kind ≠ .free) ∧
    ((words [(0x20, 1), (0x24, 1), (0x28, 1), (0x2C, 1), (0x30, 1), (0x34, 1), (0x38, 1)] (regs [])).event 7).kind = .free ∧
    (∀ j, j < 7 →
      ((words [(0x20, 1), (0x24, 1), (0x28, 1), (0x2C, 1), (0x30, 1), (0x34, 1), (0x38, 1)] (regs [])).event j).kind ≠ .free) := by
  decide +kernel

/-- No sample; a block that ends one word past the RAM; one that ends with it. -/
theorem test_hyp_RunChecksAndFrame : (regs []).ux 6 / 65536 = 0 ∧
    ((regs [(6, 0x004000C1)]).ux 6 / 65536 = 64 ∧ (regs [(6, 0x004000C1)]).ux 6 % 65536 = 193 ∧ tc.bufWords < 193 + 64) ∧
    ((regs [(6, 0x004000C0)]).ux 6 / 65536 = 64 ∧ (regs [(6, 0x004000C0)]).ux 6 % 65536 = 192 ∧ 192 + 64 ≤ tc.bufWords) ∧
    (regs []).cfg.envAdvance = .off ∧ ({ regs [] with ov := true } : State).ov = true := by
  decide +kernel

theorem test_hyp_RunAdvancesSongPosition : (regs [(6, 0x004000C0)]).cfg.songUnits = 48000 ∧
    (∀ k, ((regs [(6, 0x004000C0)]).event k).kind = .free) ∧
    (regs [(6, 0x004000C0)]).ux 6 / 65536 = 64 ∧ (regs [(6, 0x004000C0)]).ux 6 % 65536 + 64 ≤ tc.bufWords := by
  decide +kernel

/-- A free slot, an event on the last sample of a block of 64, and one just after it. -/
theorem test_hyp_RunConsumesDueEvents :
    ((words [(0x20, 1), (0x21, 63), (0x24, 2), (0x25, 64)] (regs [(6, 0x00400000)])).event 2).kind = .free ∧
    (((words [(0x20, 1), (0x21, 63), (0x24, 2), (0x25, 64)] (regs [(6, 0x00400000)])).event 0).kind ≠ .free ∧
      uint ((words [(0x20, 1), (0x21, 63), (0x24, 2), (0x25, 64)] (regs [(6, 0x00400000)])).event 0).delta < 64) ∧
    (((words [(0x20, 1), (0x21, 63), (0x24, 2), (0x25, 64)] (regs [(6, 0x00400000)])).event 1).kind ≠ .free ∧
      64 ≤ uint ((words [(0x20, 1), (0x21, 63), (0x24, 2), (0x25, 64)] (regs [(6, 0x00400000)])).event 1).delta) ∧
    (regs [(6, 0x00400000)]).ux 6 / 65536 = 64 := by
  decide +kernel

/-- Voice 3 alone on, the last word of the RAM, one sample; and a block of several samples with two voices on in mode STEP. -/
theorem test_hyp_RunRendersOneVoice : (words [(0x70, 1)] (regs [(6, 0x000100FF)])).ux 6 / 65536 = 1 ∧
    (words [(0x70, 1)] (regs [(6, 0x000100FF)])).ux 6 % 65536 = 255 ∧ 255 + 1 ≤ tc.bufWords ∧
    (words [(0x70, 1)] (regs [(6, 0x000100FF)])).cfg.envAdvance = .off ∧
    (∀ k, ((words [(0x70, 1)] (regs [(6, 0x000100FF)])).event k).kind = .free) ∧
    (∀ k, ((words [(0x70, 1)] (regs [(6, 0x000100FF)])).voice k).isOn = true ↔ k = 3) ∧
    twoVoices.ux 6 / 65536 = 2 ∧ twoVoices.ux 6 % 65536 + 2 ≤ twoVoices.cfg.bufWords ∧
    (∀ k, (twoVoices.event k).kind = .free) := by
  decide +kernel

theorem test_hyp_EndToEndScenario : uint (regs [(6, 0x00400000)]).knobs.unisono = 1 ∧
    (∀ k, ((regs [(6, 0x00400000)]).event k).kind = .free) ∧ (∀ v, ((regs [(6, 0x00400000)]).voice v).isOn = false) ∧
    (regs [(6, 0x00400000)]).reg 3 = 0 ∧ (regs [(6, 0x00400000)]).ux 6 / 65536 ≠ 0 ∧
    (regs [(6, 0x00400000)]).ux 6 % 65536 + (regs [(6, 0x00400000)]).ux 6 / 65536 ≤ tc.bufWords := by
  decide +kernel

/-- With UNISONO 1 and voice 0 on: voice 0 is on, voice 1 is the first free one, voice 2 the second. -/
theorem test_hyp_UnisonAllocation : (words [(0x40, 1)] (regs [])).cfg.legal = true ∧
    uint (words [(0x40, 1)] (regs [])).knobs.unisono = 1 ∧ sint (regs []).knobs.panSpread ≠ -2147483648 ∧
    ((words [(0x40, 1)] (regs [])).voice 0).isOn = true ∧ ((words [(0x40, 1)] (regs [])).voice 1).isOn = false ∧
    ((List.finRange 8).filter fun u => u < 1 ∧ ((words [(0x40, 1)] (regs [])).voice u).isOn = false).length = 0 ∧
    ((List.finRange 8).filter fun u => u < 2 ∧ ((words [(0x40, 1)] (regs [])).voice u).isOn = false).length = 1 := by
  decide +kernel

theorem test_hyp_UnisonOfThree : (words [(8, 3)] (regs [])).cfg.legal = true ∧ uint (words [(8, 3)] (regs [])).knobs.unisono = 3 ∧
    (∀ v, ((words [(8, 3)] (regs [])).voice v).isOn = false) := by
  decide +kernel

/-- A voice that is on with the note, one that is on with another, one that is off. -/
theorem test_hyp_ReleaseByNote :
    (((words [(0x40, 1), (0x41, 5), (0x50, 1)] (regs [])).voice 0).isOn = true ∧
      ((words [(0x40, 1), (0x41, 5), (0x50, 1)] (regs [])).voice 0).note = 5) ∧
    (¬(((words [(0x40, 1), (0x41, 5), (0x50, 1)] (regs [])).voice 1).isOn = true ∧
      ((words [(0x40, 1), (0x41, 5), (0x50, 1)] (regs [])).voice 1).note = 5)) ∧
    ¬(((regs []).voice 2).isOn = true ∧ ((regs []).voice 2).note = 5) := by
  decide +kernel

/-- The ends of every reserved range: LoadStateWord, HostBusAccess. -/
theorem test_hyp_LoadStateWord : Unreadable (-1) ∧ Unreadable 0x005 ∧ Unreadable 0x007 ∧ Unreadable 0x00F ∧ Unreadable 0x015 ∧
    Unreadable 0x01F ∧ Unreadable 0x04C ∧ Unreadable 0x0BF ∧ Unreadable 0x0C7 ∧ Unreadable 0x0FF ∧ Unreadable 0x100 := by
  refine ⟨?_, ?_, ?_, ?_, ?_, ?_, ?_, ?_, ?_, ?_, ?_⟩ <;> (unfold Unreadable; decide)

/-- The ends of every range between them: LoadStateWord, HostBusAccess. -/
theorem test_hyp_LoadStateWord_readable : ¬Unreadable 0x000 ∧ ¬Unreadable 0x004 ∧ ¬Unreadable 0x008 ∧ ¬Unreadable 0x00E ∧
    ¬Unreadable 0x010 ∧ ¬Unreadable 0x014 ∧ ¬Unreadable 0x020 ∧ ¬Unreadable 0x03F ∧ ¬Unreadable 0x040 ∧ ¬Unreadable 0x0BB ∧
    ¬Unreadable 0x0C0 ∧ ¬Unreadable 0x0FE := by
  refine ⟨?_, ?_, ?_, ?_, ?_, ?_, ?_, ?_, ?_, ?_, ?_, ?_⟩ <;> (unfold Unreadable; decide)

/-- Read-only and writable words: StoreStateWord, HostBusAccess. -/
theorem test_hyp_StoreStateWord : Unwritable 0x001 ∧ Unwritable 0x003 ∧ Unwritable 0x005 ∧ ¬Unwritable 0x000 ∧
    ¬Unwritable 0x004 ∧ ¬Unwritable 0x0FE := by
  refine ⟨?_, ?_, ?_, ?_, ?_, ?_⟩ <;> (unfold Unwritable Unreadable; decide)

/-- The last legal and the first illegal value of each enumerated word: StoreStateWord, HostBusAccess. -/
theorem test_hyp_StoreStateWord_enum : IllegalValue 0x020 3 ∧ ¬IllegalValue 0x020 2 ∧ IllegalValue 0x040 2 ∧
    ¬IllegalValue 0x040 1 ∧ IllegalValue 0x046 2 ∧ IllegalValue 0x0C0 5 ∧ ¬IllegalValue 0x0C0 4 ∧ IllegalValue 0x014 5 ∧
    ¬IllegalValue 0x014 4 ∧ ¬IllegalValue 0x004 0xFFFFFFFF := by
  refine ⟨?_, ?_, ?_, ?_, ?_, ?_, ?_, ?_, ?_, ?_⟩ <;> (unfold IllegalValue; decide)

theorem test_hyp_BufferAccess : (regs [(2, 0xFFFFFFFF)]).x 2 + (0 : BitVec 16).toInt < 0 ∧
    (tc.bufWords : Int) ≤ (regs []).x 2 + (256 : BitVec 16).toInt ∧ 0 ≤ (regs []).x 2 + (0 : BitVec 16).toInt ∧
    (regs []).x 2 + (255 : BitVec 16).toInt < tc.bufWords := by
  decide +kernel

theorem test_hyp_HostBusAccess : (uint (0xFF : Word) : Int) < tc.bufWords ∧ (tc.bufWords : Int) ≤ (uint (0x100 : Word) : Int) := by
  decide

/-- A command that faults, one that does not, and one that never does. -/
theorem test_hyp_FaultsArePrecise : (regs []).mode = .ready ∧ decode 0x28123000 = .ok (.idiv 1 2 3 .wrap) ∧
    (after 0x28123000 (regs [])).mode = .faulted ∧ (after 0x28123000 (regs [(3, 1)])).mode = .ready ∧
    decode 0x04000000 = .ok .nop ∧ Instr.nop.causes = [] := by
  decide +kernel

theorem test_hyp_FaultedUntilReset : (after 0 (regs [])).mode = .faulted ∧
    serve (.command 0x08100005) (after 0 (regs [])) = .next (after 0 (regs [])) ∧
    (∃ t, serve .reset (after 0 (regs [])) = .next t) ∧ (∃ t, serve (.busRead .state 0) (after 0 (regs [])) = .next t) ∧
    (HostRequest.busRead .state 0 ≠ .reset) :=
  ⟨by decide +kernel, rfl, ⟨_, rfl⟩, ⟨_, rfl⟩, by decide⟩

theorem test_hyp_ConfigurationIsFixed : step (State.reset.withFetchWord 32 0x04000000) = .next State.reset := by rfl

/-- A state with the invariant, and a step from it. -/
theorem test_hyp_StepKeepsInvariant : (State.resetWith tc).Inv ∧ step (State.resetWith tc) = .next (State.resetWith tc) :=
  ⟨⟨by decide +kernel, List.Pairwise.nil, fun _ h => (by cases h), Nat.zero_le _, fun _ => ⟨rfl, rfl⟩, fun h => (by cases h),
    Nat.zero_le _, fun h => (by cases h)⟩, rfl⟩

theorem test_hyp_StepRunsTheDeliveredCommand : (regs []).host = [] ∧ (regs []).mode = .ready ∧
    ({ regs [] with host := [.command 0x04000000, .reset] } : State).host = .command 0x04000000 :: [.reset] ∧
    decode 0x04000000 = .ok .nop := by
  decide +kernel

end Sys2Proof.Tests
end

section
/-! PROOF. The invariant of the block (10_state.md R24, R26, R29, R34; 60_exceptions.md R302, R306): it holds at reset,
each shape of a command's effect keeps it, and so does each interaction of the host. -/

namespace Sys2Proof

/-- The kernel evaluates the bounds and the guard entries of the 513-word ROMs. -/
theorem Config.fallback_legal : Config.fallback.legal = true := by decide +kernel

theorem Config.block_legal : Config.block.legal = true := by
  unfold Config.block
  split
  · assumption
  · exact Config.fallback_legal

end Sys2Proof

namespace Sys2Proof.Machine

open Sys2Proof

/-! At reset. -/

theorem State.resetWith_inv {c : Config} (h : c.legal = true) : (State.resetWith c).Inv where
  legal := h
  bufWf := State.resetWith_buf_wf c
  bufIn := fun _ hp => nomatch hp
  count := Nat.zero_le 4
  ready := fun _ => ⟨rfl, rfl⟩
  faulted := fun hm => nomatch hm
  ecode := Nat.zero_le 2
  err := fun he => nomatch he

/-! The operations that the effects of commands and the host's port are made of. -/

variable {s t : State}

/-- The invariant reads only CFG, the mode, ERR, ECODE, FCAUSE, FAULTCMD, NOTE_COUNT and BUF. -/
theorem State.Inv.of_unread (hs : s.Inv)
    (ht : t = { s with
      regs := t.regs, ov := t.ov, seed := t.seed, knobs := t.knobs, activeNotes := t.activeNotes, events := t.events,
      voices := t.voices, envs := t.envs, bufEpoch := t.bufEpoch, host := t.host, busReply := t.busReply,
      busDraws := t.busDraws }) : t.Inv := by
  rw [ht]
  exact ⟨hs.legal, hs.bufWf, hs.bufIn, hs.count, hs.ready, hs.faulted, hs.ecode, hs.err⟩

theorem causeCode_range (c : Cause) : 1 ≤ (causeCode c).toNat ∧ (causeCode c).toNat ≤ 9 := by
  cases c <;> decide

theorem State.Inv.takeFault (hs : s.Inv) (w : Word) (c : Cause) : (takeFault w c s).Inv :=
  { hs with ready := fun hm => (nomatch hm), faulted := fun _ => causeCode_range c }

theorem State.Inv.deviceError (hs : s.Inv) {code : BitVec 4} (h : code = 1 ∨ code = 2) : (deviceError code s).Inv :=
  { hs with
    ecode := show code.toNat ≤ 2 by rcases h with rfl | rfl <;> decide
    err := fun _ => show code ≠ 0 by rcases h with rfl | rfl <;> decide }

theorem State.Inv.bufWrite (hs : s.Inv) {a : Nat} (ha : a < s.cfg.bufWords) (w : Word) : (s.bufWrite a w).Inv :=
  { hs with bufWf := State.bufWrite_wf a w hs.bufWf, bufIn := State.bufWrite_in w hs.bufIn ha }

theorem State.Inv.writeLoc (hs : s.Inv) {l : StateLoc} {w : Word} (h : s.writeLoc l w = .ok t) : t.Inv := by
  obtain ⟨-, buf, -, cfg, mode, -, -, -, fcause, faultcmd, ecode, err, count⟩ := writeLoc_frame h
  exact {
    legal := cfg ▸ hs.legal
    bufWf := buf ▸ hs.bufWf
    bufIn := by rw [buf, cfg]; exact hs.bufIn
    count := count hs.count
    ready := by rw [mode, fcause, faultcmd]; exact hs.ready
    faulted := by rw [mode, fcause]; exact hs.faulted
    ecode := ecode ▸ hs.ecode
    err := fun he => ecode ▸ hs.err (err he) }

/-- A part of RUN keeps the invariant when the BUF words it may write lie inside the RAM. -/
theorem State.Inv.runFrame (hs : s.Inv) {lo hi : Nat} (hf : RunFrame lo hi s t) (hhi : hi ≤ s.cfg.bufWords) :
    t.Inv := by
  rw [hf.rest]
  exact { hs with bufWf := hf.wf hs.bufWf, bufIn := hf.inside _ hhi hs.bufIn }

/-! Commands. -/

theorem Effect.keeps_inv {i : Instr} (h : Effect i s t) (hs : s.Inv) : t.Inv := by
  cases h with
  | same => exact hs
  | fault c => exact hs.takeFault _ c
  | quad => exact hs.takeFault _ .illegal
  | deviceError _ _ _ _ code hcode => exact hs.deviceError hcode
  | run _ _ _ _ base len hin u hu w => exact (hs.runFrame hu hin).of_unread rfl
  | sts _ _ _ _ l _ ht => exact hs.writeLoc ht
  | stb _ _ _ _ a ha w => exact hs.bufWrite ha w
  | anoff _ vs es =>
    have hn : State.Inv { s with noteCount := 0 } := { hs with count := Nat.zero_le 4 }
    exact hn.of_unread rfl
  | reg | regOv | rand | rseed | etrig | eoff | eadv | voice | vgetn | event => exact hs.of_unread rfl

theorem runCommand_keeps_inv {w : Word} (hs : s.Inv) (h : runCommand w s = .next t) : t.Inv := by
  unfold runCommand at h
  split at h
  · cases h; exact hs
  · split at h
    · next i _ => exact (Effect.of_exec h).keeps_inv hs
    · cases h; exact hs.takeFault w .illegal

/-! The host's port. -/

theorem State.Inv.busRead (hs : s.Inv) (sp : Space) (addr : Word) : (s.busRead sp addr).Inv := by
  unfold State.busRead
  split <;> exact hs.of_unread rfl

theorem State.Inv.busWrite (hs : s.Inv) (sp : Space) (addr w : Word) : (s.busWrite sp addr w).Inv := by
  cases sp with
  | state =>
    simp only [State.busWrite]
    split
    · next t ht =>
      obtain ⟨l, -, hl⟩ := writeState_loc ht
      exact hs.writeLoc hl
    · exact hs
  | buf =>
    simp only [State.busWrite]
    split
    · next a ha => exact hs.bufWrite (bufLoc_eq.mp ha).2 w
    · exact hs

theorem State.Inv.takeReset (hs : s.Inv) : (takeReset s).Inv :=
  (State.resetWith_inv hs.legal).of_unread rfl

theorem serve_keeps_inv {r : HostRequest} (hs : s.Inv) (h : serve r s = .next t) : t.Inv := by
  cases r with
  | command w => exact runCommand_keeps_inv hs h
  | busRead sp addr => cases h; exact hs.busRead sp addr
  | busWrite sp addr w => cases h; exact hs.busWrite sp addr w
  | reset => cases h; exact hs.takeReset

theorem State.Inv.takeRequest {r : HostRequest} (hs : s.Inv) (h : s.takeRequest = some (r, t)) : t.Inv := by
  unfold State.takeRequest at h
  split at h <;> cases h
  exact hs.of_unread rfl

theorem step_keeps_inv (hs : s.Inv) (h : step s = .next t) : t.Inv := by
  unfold step at h
  split at h
  · cases h; exact hs
  · next r u hu => exact serve_keeps_inv (hs.takeRequest hu) h

/-! The obligations. -/

/-- Settles O59: an interaction of the host is a reset, a bus access or a command, and a command's next state has one of
the shapes of `Effect`, each of which keeps the invariant. -/
theorem stepKeepsInvariant : Obligations.StepKeepsInvariant := fun _ _ => step_keeps_inv

/-- Settles O58: the configuration of the block is legal, and every other value is the one of `State.resetWith`. -/
theorem resetSatisfiesInvariant : Obligations.ResetSatisfiesInvariant := State.resetWith_inv Config.block_legal

end Sys2Proof.Machine
end

section
/-! PROOF. What a command leaves unchanged, read off the shapes of its next state (`Effect`): the registers, the status
flags, the engine's state and BUF (10_state.md R23 to R34). -/

namespace Sys2Proof.Machine

open Sys2Proof

variable {i : Instr} {s t : State}

/-! Registers (10_state.md R23). -/

theorem State.reg_of_regs_eq (h : t.regs = s.regs) (r : Reg) : t.reg r = s.reg r := by
  unfold State.reg; simp only [h]

/-- A part of RUN reads and writes no operand register. -/
theorem RunFrame.regs {lo hi : Nat} (h : RunFrame lo hi s t) : t.regs = s.regs := by rw [h.rest]

theorem State.reg_setReg_of_ne_dest {rd r : Reg} (hd : i.dest = some rd) (hr : i.dest ≠ some r) (w : Word) :
    (s.setReg rd w).reg r = s.reg r :=
  s.reg_setReg_ne w fun e => hr (e ▸ hd)

theorem Effect.reg_of_ne_dest (h : Effect i s t) {r : Reg} (hr : i.dest ≠ some r) : t.reg r = s.reg r := by
  cases h with
  | reg rd w hd => exact State.reg_setReg_of_ne_dest hd hr w
  | regOv rd b w hd => exact State.reg_setReg_of_ne_dest hd hr w
  | rand rd v w hi => exact State.reg_setReg_of_ne_dest (hi ▸ rfl) hr w
  | vgetn rd vi hi v x w => exact State.reg_setReg_of_ne_dest (hi ▸ rfl) hr w
  | run rd _ _ hi _ _ _ u hu w =>
    exact (State.reg_setReg_of_ne_dest (hi ▸ rfl) hr w).trans (State.reg_of_regs_eq hu.regs r)
  | sts _ _ _ _ l _ ht =>
    obtain ⟨hregs, -⟩ := writeLoc_frame ht
    exact State.reg_of_regs_eq hregs r
  | _ => rfl

/-- Settles O50: an effect that writes a register at all writes the command's destination. -/
theorem onlyDestinationRegisterChanges : Obligations.OnlyDestinationRegisterChanges :=
  fun _ _ _ h _ hr => (Effect.of_exec h).reg_of_ne_dest hr

/-! Every command but STS. -/

section NotSts

variable (h : Effect i s t) (hsts : ∀ rd rs1 imm, i ≠ .sts rd rs1 imm)
include h hsts

theorem Effect.ov_sticky (hov : s.ov = true) : t.ov = true := by
  cases h with
  | regOv | eoff | eadv => simp [hov]
  | run _ _ _ _ _ _ _ u hu => exact hu.ov hov
  | sts rd rs1 imm hi => exact absurd hi (hsts rd rs1 imm)
  | _ => exact hov

theorem Effect.ov_eq (hm : i.mayOverflow = false) : t.ov = s.ov := by
  cases h with
  | regOv _ _ _ _ hm' => rw [hm'] at hm; cases hm
  | eoff _ hi | eadv _ hi | run _ _ _ hi => rw [hi] at hm; cases hm
  | sts rd rs1 imm hi => exact absurd hi (hsts rd rs1 imm)
  | _ => rfl

theorem Effect.err_sticky (herr : s.err = true) : t.err = true := by
  cases h with
  | deviceError => rfl
  | run _ _ _ _ _ _ _ u hu => rw [hu.rest]; exact herr
  | sts rd rs1 imm hi => exact absurd hi (hsts rd rs1 imm)
  | _ => exact herr

theorem Effect.knobs_eq : t.knobs = s.knobs := by
  cases h with
  | run _ _ _ _ _ _ _ u hu => rw [hu.rest]; rfl
  | sts rd rs1 imm hi => exact absurd hi (hsts rd rs1 imm)
  | _ => rfl

theorem Effect.noteLog_eq (hi : i ≠ .anoff) : t.activeNotes = s.activeNotes ∧ t.noteCount = s.noteCount := by
  cases h with
  | run _ _ _ _ _ _ _ u hu => rw [hu.rest]; exact ⟨rfl, rfl⟩
  | anoff hi' => exact absurd hi' hi
  | sts rd rs1 imm hi => exact absurd hi (hsts rd rs1 imm)
  | _ => exact ⟨rfl, rfl⟩

/-! And but RUN. -/

variable (hrun : ∀ rd rs1 rs2, i ≠ .run rd rs1 rs2)
include hrun

theorem Effect.err_ecode_eq : t.err = s.err ∧ t.ecode = s.ecode := by
  cases h with
  | deviceError rd rs1 rs2 hi | run rd rs1 rs2 hi => exact absurd hi (hrun rd rs1 rs2)
  | sts rd rs1 imm hi => exact absurd hi (hsts rd rs1 imm)
  | _ => exact ⟨rfl, rfl⟩

theorem Effect.events_eq (hi : i ≠ .anoff) (hon : ∀ rs1 rs2 rs3, i ≠ .noteon rs1 rs2 rs3)
    (hoff : ∀ rs1 rs2, i ≠ .noteoff rs1 rs2) : t.events = s.events := by
  cases h with
  | event hi' =>
    obtain ⟨rs1, rs2, rs3, hi'⟩ | ⟨rs1, rs2, hi'⟩ := hi'
    · exact absurd hi' (hon rs1 rs2 rs3)
    · exact absurd hi' (hoff rs1 rs2)
  | anoff hi' => exact absurd hi' hi
  | run rd rs1 rs2 hi' => exact absurd hi' (hrun rd rs1 rs2)
  | sts rd rs1 imm hi' => exact absurd hi' (hsts rd rs1 imm)
  | _ => rfl

theorem Effect.voices_eq (hi : i ≠ .anoff) (hvon : ∀ rs1 vi, i ≠ .von rs1 vi) (hvoff : ∀ vi, i ≠ .voff vi)
    (hslide : ∀ rs1 vi, i ≠ .vslide rs1 vi) (hgetn : ∀ rd vi, i ≠ .vgetn rd vi)
    (hphadv : ∀ rs1 vi, i ≠ .vphadv rs1 vi) : t.voices = s.voices := by
  cases h with
  | voice hi' =>
    obtain ⟨rs1, vi, hi'⟩ | ⟨vi, hi'⟩ | ⟨rs1, vi, hi'⟩ | ⟨rs1, vi, hi'⟩ := hi'
    · exact absurd hi' (hvon rs1 vi)
    · exact absurd hi' (hvoff vi)
    · exact absurd hi' (hslide rs1 vi)
    · exact absurd hi' (hphadv rs1 vi)
  | vgetn rd vi hi' => exact absurd hi' (hgetn rd vi)
  | anoff hi' => exact absurd hi' hi
  | run rd rs1 rs2 hi' => exact absurd hi' (hrun rd rs1 rs2)
  | sts rd rs1 imm hi' => exact absurd hi' (hsts rd rs1 imm)
  | _ => rfl

end NotSts

/-- Settles O51: a command raises OV or leaves it, and only RUN's device error touches ERR and ECODE. -/
theorem statusFlagsFrame : Obligations.StatusFlagsFrame := fun _ _ _ h hsts =>
  have he := Effect.of_exec h
  ⟨he.ov_sticky hsts, he.ov_eq hsts, he.err_sticky hsts, he.err_ecode_eq hsts⟩

/-- Settles O52: each part of the engine's state changes in the effects of the named commands only. -/
theorem engineStateFrame : Obligations.EngineStateFrame := fun _ _ _ h hsts =>
  have he := Effect.of_exec h
  ⟨he.knobs_eq hsts, he.noteLog_eq hsts,
    fun hanoff hrun => ⟨he.events_eq hsts hrun hanoff, he.voices_eq hsts hrun hanoff⟩⟩

/-! BUF (10_state.md R34): a word reads by the list of written words and the number of the last reset. -/

theorem State.bufRead_of_buf_eq (hb : t.buf = s.buf) (he : t.bufEpoch = s.bufEpoch) (a : Nat) :
    t.bufRead a = s.bufRead a := by
  unfold State.bufRead; rw [hb, he]

theorem Effect.bufRead_eq (h : Effect i s t) (hstb : ∀ rd rs1 imm, i ≠ .stb rd rs1 imm)
    (hrun : ∀ rd rs1 rs2, i ≠ .run rd rs1 rs2) (a : Nat) : t.bufRead a = s.bufRead a := by
  cases h with
  | run rd rs1 rs2 hi => exact absurd hi (hrun rd rs1 rs2)
  | stb rd rs1 imm hi => exact absurd hi (hstb rd rs1 imm)
  | sts _ _ _ _ l _ ht =>
    obtain ⟨-, hbuf, hepoch, -⟩ := writeLoc_frame ht
    exact State.bufRead_of_buf_eq hbuf hepoch a
  | _ => rfl

/-- Settles O53: the effects of the other commands leave BUF alone, STS's because no state word is one of BUF. -/
theorem onlyStbAndRunWriteBuffer : Obligations.OnlyStbAndRunWriteBuffer :=
  fun _ _ _ h hstb hrun => (Effect.of_exec h).bufRead_eq hstb hrun

end Sys2Proof.Machine
end

section
/-! PROOF. What a reset leaves in each state word (10_state.md R37), and what a step does with the host's oldest
interaction (10_state.md R20; 20_memory.md R70, R71). -/

namespace Sys2Proof.Machine

open Sys2Proof

/-! Reset. -/

/-- The state words whose reset value is 0 whatever the configuration (10_state.md R37). -/
def StateLoc.zeroAtReset : StateLoc → Bool
  | .devid | .config | .seed | .knob .unisono | .env _ .stage => false
  | _ => true

@[simp] theorem takeReset_reg (s : State) (r : Reg) : (takeReset s).reg r = 0 := Vector.getElem_replicate _

@[simp] theorem takeReset_activeNote (s : State) (k : Fin 4) : (takeReset s).activeNotes[k.val] = 0 :=
  Vector.getElem_replicate _

@[simp] theorem takeReset_event (s : State) (k : Fin 8) : (takeReset s).event k = Event.cleared :=
  Vector.getElem_replicate _

@[simp] theorem takeReset_voice (s : State) (v : Fin 8) : (takeReset s).voice v = Voice.atReset :=
  Vector.getElem_replicate _

@[simp] theorem takeReset_env (s : State) (e : Fin 8) : (takeReset s).env e = Envelope.atReset :=
  Vector.getElem_replicate _

theorem takeReset_statusWord (s : State) : (takeReset s).statusWord = 0 := by
  change 0#16 ++ 0#4 ++ 0#3 ++ BitVec.ofBool (Mode.ready == .faulted) ++ 0#4 ++ 0#2 ++ 0#1 ++ 0#1 = 0#32
  decide

theorem takeReset_readLoc (s : State) {l : StateLoc} (h : l.zeroAtReset = true) : (takeReset s).readLoc l = 0 := by
  cases l with
  | status => exact takeReset_statusWord s
  | faultcmd | noteCount => rfl
  | devid | config | seed => cases h
  | knob k =>
    cases k with
    | unisono => cases h
    | _ => rfl
  | activeNote k => exact takeReset_activeNote s k
  | event k f => rw [State.readLoc, takeReset_event]; cases f <;> rfl
  | voice v f => rw [State.readLoc, takeReset_voice]; cases f <;> rfl
  | env e f =>
    rw [State.readLoc, takeReset_env]
    cases f with
    | stage => cases h
    | _ => rfl

/-- The address, not the state, decides whether a word reads 0 after a reset. -/
theorem takeReset_readState (s : State) {a : Int} (h : (stateLoc a).any StateLoc.zeroAtReset = true) :
    (takeReset s).readState a = some 0 := by
  rw [State.readState]
  cases hl : stateLoc a with
  | none => rw [hl] at h; cases h
  | some l =>
    rw [hl] at h
    exact congrArg some (takeReset_readLoc s h)

theorem zeroAtReset_knobs :
    ∀ a : Fin 6, (stateLoc (9 + a.val)).any StateLoc.zeroAtReset = true := by decide

theorem zeroAtReset_noteLog :
    ∀ a : Fin 5, (stateLoc (16 + a.val)).any StateLoc.zeroAtReset = true := by decide

theorem zeroAtReset_voices : ∀ (v : Fin 8) (n : Fin 12),
    (stateLoc (0x40 + 16 * v.val + n.val)).any StateLoc.zeroAtReset = true := by decide

/-- Settles O56: a reset loads the reset values; the words of the state space are read through their addresses. -/
theorem resetValues : Obligations.ResetValues := fun s =>
  ⟨takeReset s, rfl, rfl, takeReset_reg s, takeReset_readState s rfl, rfl, rfl, rfl,
    fun a => takeReset_readState s (zeroAtReset_knobs a), fun a => takeReset_readState s (zeroAtReset_noteLog a),
    takeReset_event s, fun v n => takeReset_readState s (zeroAtReset_voices v n), takeReset_env s, rfl⟩

/-! A step. -/

theorem step_of_host_nil {s : State} (h : s.host = []) : step s = .next s := by
  simp [step, State.takeRequest, h]

theorem step_of_host_cons {s : State} {r : HostRequest} {rest : List HostRequest} (h : s.host = r :: rest) :
    step s = serve r { s with host := rest } := by
  simp [step, State.takeRequest, h]

theorem runCommand_of_decode {s : State} {w : Word} {i : Instr} (hm : s.mode = .ready) (hd : decode w = .ok i) :
    runCommand w s = exec i s := by
  simp [runCommand, hm, hd]

theorem withFetchWord_uint (s : State) (w : Word) : s.withFetchWord 32 (uint w) = s.deliver w := by
  rw [State.withFetchWord, Nat.mod_eq_of_lt w.isLt, BitVec.ofNat_toNat, BitVec.setWidth_eq]

theorem step_deliver (s : State) (w : Word) : step (s.deliver w) = runCommand w s := rfl

theorem runCommand_next (w : Word) (s : State) : ∃ t, runCommand w s = .next t := by
  unfold runCommand
  split
  · exact ⟨s, rfl⟩
  · split
    · next i _ =>
      obtain ⟨t, ht, -⟩ := exec_effect i s
      exact ⟨t, ht⟩
    · exact ⟨_, rfl⟩

theorem serve_next (r : HostRequest) (s : State) : ∃ t, serve r s = .next t := by
  cases r with
  | command w => exact runCommand_next w s
  | busRead | busWrite | reset => exact ⟨_, rfl⟩

theorem step_next (s : State) : ∃ t, step s = .next t := by
  cases h : s.host with
  | nil => exact ⟨s, step_of_host_nil h⟩
  | cons r rest =>
    rw [step_of_host_cons h]
    exact serve_next r _

/-- Settles O60: a step serves the head of the host's list, and every interaction ends in a next state. -/
theorem stepRunsTheDeliveredCommand : Obligations.StepRunsTheDeliveredCommand := by
  intro s r rest w i
  refine ⟨step_of_host_nil, step_of_host_cons, fun hh hm hd => ?_, fun hm hd => ?_, step_next s⟩
  · rw [step_of_host_cons hh]
    exact runCommand_of_decode hm hd
  · rw [withFetchWord_uint, step_deliver, runCommand_of_decode hm hd]

end Sys2Proof.Machine
end

section
/-! PROOF. The map of the state space (20_memory.md R64): the address of each word, the addresses without one, and the
fields of STATUS and CONFIG (10_state.md R24, R26). -/

namespace Sys2Proof.Machine

open Sys2Proof

/-! Addresses. -/

/-- Each mapped word is found at its address. -/
@[simp] theorem stateLoc_locAddr (l : StateLoc) : stateLoc (locAddr l) = some l := by
  cases l with
  | status | faultcmd | devid | config | seed | noteCount => rfl
  | knob k => cases k <;> rfl
  | activeNote i => decide +revert
  | event k f => cases f <;> decide +revert
  | voice v f => cases f <;> decide +revert
  | env e f => cases f <;> decide +revert

theorem stateLoc_eq_some_iff {a : Int} {l : StateLoc} : stateLoc a = some l ↔ a = locAddr l :=
  ⟨stateLoc_addr, fun h => h ▸ stateLoc_locAddr l⟩

/-- The kernel decodes the 256 mapped addresses. -/
theorem locAt_eq_none_iff : ∀ n : Fin 256, locAt n.val = none ↔ Unreadable n.val := by
  unfold Unreadable; decide +kernel

/-- An address names no word exactly where it is negative, past the mapped words, or reserved. -/
theorem stateLoc_eq_none_iff {a : Int} : stateLoc a = none ↔ Unreadable a := by
  obtain hneg | hbig | ⟨n, hn, rfl⟩ : a < 0 ∨ 0x100 ≤ a ∨ ∃ n : Nat, n < 256 ∧ a = n := by
    by_cases h : 0 ≤ a ∧ a < 0x100
    · exact .inr (.inr ⟨a.toNat, by omega, by omega⟩)
    · omega
  · exact iff_of_true (if_neg (by omega)) (.inl hneg)
  · refine iff_of_true (Option.eq_none_iff_forall_ne_some.mpr fun l hl => ?_) (.inr (.inl hbig))
    rw [stateLoc, if_pos (by omega)] at hl
    have := locAt_lt hl
    omega
  · exact locAt_eq_none_iff ⟨n, hn⟩

@[simp] theorem State.readState_locAddr (s : State) (l : StateLoc) : s.readState (locAddr l) = some (s.readLoc l) := by
  simp [State.readState]

theorem State.readState_eq_none_iff {s : State} {a : Int} : s.readState a = none ↔ Unreadable a := by
  rw [State.readState, Option.map_eq_none_iff, stateLoc_eq_none_iff]

/-- The words read at the addresses of a list of state words. -/
theorem State.map_readState_locAddr (s : State) (ls : List StateLoc) :
    ls.map (fun l => s.readState (locAddr l)) = ls.map (fun l => some (s.readLoc l)) :=
  List.map_congr_left fun l _ => s.readState_locAddr l

/-! STATUS and CONFIG. -/

theorem State.statusWord_fields (s : State) :
    s.statusWord.getLsbD 0 = s.ov ∧ s.statusWord.getLsbD 1 = s.err ∧ s.statusWord.extractLsb' 2 2 = 0 ∧
      s.statusWord.extractLsb' 4 4 = s.ecode ∧ s.statusWord.getLsbD 8 = (s.mode == .faulted) ∧
      s.statusWord.extractLsb' 9 3 = 0 ∧ s.statusWord.extractLsb' 12 4 = s.fcause ∧
      s.statusWord.extractLsb' 16 16 = 0 := by
  simp only [State.statusWord, BitVec.getLsbD_append, BitVec.extractLsb'_append_eq_of_le,
    BitVec.extractLsb'_append_eq_right, Nat.reduceLeDiff, Nat.reduceSub]
  simp

theorem configWord_fields (c : Config) :
    (configWord c).extractLsb' 0 8 = BitVec.ofNat 8 c.fS ∧ (configWord c).extractLsb' 8 8 = BitVec.ofNat 8 c.fH ∧
      (configWord c).extractLsb' 16 8 = BitVec.ofNat 8 c.fQ ∧
      (configWord c).getLsbD 24 = (c.envAdvance == .step) ∧
      (configWord c).getLsbD 25 = (c.interpProduct == .wrapProduct) ∧ (configWord c).extractLsb' 26 6 = 0 := by
  simp only [configWord, BitVec.getLsbD_append, BitVec.extractLsb'_append_eq_of_le,
    BitVec.extractLsb'_append_eq_right, Nat.reduceLeDiff, Nat.reduceSub]
  simp

/-! The obligation. -/

/-- Settles O45: the state words, listed in address order, are read at their addresses, and the addresses of no word are
the reserved and unmapped ones. -/
theorem stateSpaceMap : Obligations.StateSpaceMap := fun s =>
  ⟨⟨s.statusWord, rfl, s.statusWord_fields⟩, rfl, rfl, ⟨configWord s.cfg, rfl, configWord_fields s.cfg⟩, rfl,
    s.map_readState_locAddr [.knob .unisono, .knob .detuneSpread, .knob .panSpread, .knob .vibRate, .knob .vibAmount,
      .knob .rise, .knob .slideTime],
    fun i => s.readState_locAddr (.activeNote i), rfl,
    fun k => s.map_readState_locAddr [.event k .kind, .event k .delta, .event k .note, .event k .velocity],
    fun v => s.map_readState_locAddr [.voice v .isOn, .voice v .note, .voice v .detune, .voice v .pan,
      .voice v .vibPhase, .voice v .slideTime, .voice v .slideActive, .voice v .slideDelta, .voice v .slideRemaining,
      .voice v .destNote, .voice v .currentNote, .voice v .oscPhase],
    fun e => s.map_readState_locAddr [.env e .stage, .env e .position, .env e .attackRate, .env e .decayRate,
      .env e .sustain, .env e .releaseRate, .env e .releaseValue],
    fun _ => State.readState_eq_none_iff⟩

end Sys2Proof.Machine
end

section
/-! PROOF. Writes to the state space (20_memory.md R64, R65): which are refused and what the others store; and the
host bus (R69) on top of them. -/

namespace Sys2Proof.Machine

open Sys2Proof

variable {s t : State} {l : StateLoc} {a : Int} {w : Word}

/-! Enumerated words: how many values are legal, from 0 on (20_memory.md R65). -/

/-- The number of legal values of an event word (10_state.md R30). -/
def EventField.codes : EventField → Nat
  | .kind => 3
  | _ => 2 ^ 32

/-- The number of legal values of a voice word (10_state.md R31). -/
def VoiceField.codes : VoiceField → Nat
  | .isOn | .slideActive => 2
  | _ => 2 ^ 32

/-- The number of legal values of an envelope word (10_state.md R32). -/
def EnvField.codes : EnvField → Nat
  | .stage => 5
  | _ => 2 ^ 32

/-- The number of legal values of a state word. -/
def StateLoc.codes : StateLoc → Nat
  | .noteCount => 5
  | .event _ f => f.codes
  | .voice _ f => f.codes
  | .env _ f => f.codes
  | _ => 2 ^ 32

/-- The words that no write changes (20_memory.md R64). -/
def StateLoc.readOnly : StateLoc → Bool
  | .faultcmd | .devid | .config => true
  | _ => false

theorem unwritable_locAddr_iff : Unwritable (locAddr l) ↔ l.readOnly = true := by
  have hread : ¬Unreadable (locAddr l) := by simp [← stateLoc_eq_none_iff]
  simp only [Unwritable, hread, false_or]
  cases l with
  | knob k => cases k <;> simp [StateLoc.readOnly, locAddr, knobAddr]
  | status | faultcmd | devid | config | seed | noteCount => simp [StateLoc.readOnly, locAddr]
  | activeNote | event | voice | env => simp [StateLoc.readOnly, locAddr]; omega

theorem illegalValue_locAddr_iff : IllegalValue (locAddr l) w ↔ l.codes ≤ uint w := by
  have hw : uint w < 4294967296 := w.isLt
  cases l with
  | knob k => cases k <;> simp [IllegalValue, StateLoc.codes, locAddr, knobAddr, hw]
  | status | faultcmd | devid | config | seed | noteCount => simp [IllegalValue, StateLoc.codes, locAddr, hw]
  | activeNote i => simp [IllegalValue, StateLoc.codes, locAddr]; omega
  | event k f => cases f <;> simp [IllegalValue, StateLoc.codes, EventField.codes, EventField.offset, locAddr] <;> omega
  | voice v f => cases f <;> simp [IllegalValue, StateLoc.codes, VoiceField.codes, VoiceField.offset, locAddr] <;> omega
  | env e f => cases f <;> simp [IllegalValue, StateLoc.codes, EnvField.codes, EnvField.offset, locAddr] <;> omega

/-! The codes, read back. -/

theorem flagOf_eq_some_iff {b : Bool} : flagOf w = some b ↔ flagWord b = w := by
  unfold flagOf flagWord
  cases b <;> grind

theorem kindOf_eq_some_iff {k : EventKind} : kindOf w = some k ↔ kindWord k = w := by
  unfold kindOf kindWord
  cases k <;> grind

theorem stageOf_eq_some_iff {x : EnvStage} : stageOf w = some x ↔ stageWord x = w := by
  unfold stageOf stageWord
  cases x <;> grind

theorem flagOf_eq_none_iff : flagOf w = none ↔ 2 ≤ uint w := by
  unfold flagOf uint
  split_ifs <;> simp <;> bv_omega

theorem kindOf_eq_none_iff : kindOf w = none ↔ 3 ≤ uint w := by
  unfold kindOf uint
  split_ifs <;> simp <;> bv_omega

theorem stageOf_eq_none_iff : stageOf w = none ↔ 5 ≤ uint w := by
  unfold stageOf uint
  split_ifs <;> simp <;> bv_omega

/-! Writes to the parts of the state: none exactly where the value is illegal, else the word written reads back and the
other words of that part read as before. -/

theorem Knobs.word_write (k : Knobs) (f g : Knob) (w : Word) :
    (k.write f w).word g = if g = f then w else k.word g := by
  cases f <;> cases g <;> rfl

theorem Event.write_eq_none_iff {e : Event} {f : EventField} : e.write f w = none ↔ f.codes ≤ uint w := by
  cases f with
  | kind => exact Option.map_eq_none_iff.trans kindOf_eq_none_iff
  | _ => exact iff_of_false (fun h => nomatch h) (Nat.not_le.mpr w.isLt)

theorem Voice.write_eq_none_iff {v : Voice} {f : VoiceField} : v.write f w = none ↔ f.codes ≤ uint w := by
  cases f with
  | isOn | slideActive => exact Option.map_eq_none_iff.trans flagOf_eq_none_iff
  | _ => exact iff_of_false (fun h => nomatch h) (Nat.not_le.mpr w.isLt)

theorem Envelope.write_eq_none_iff {e : Envelope} {f : EnvField} : e.write f w = none ↔ f.codes ≤ uint w := by
  cases f with
  | stage => exact Option.map_eq_none_iff.trans stageOf_eq_none_iff
  | _ => exact iff_of_false (fun h => nomatch h) (Nat.not_le.mpr w.isLt)

theorem Event.word_of_write {e e' : Event} {f : EventField} (h : e.write f w = some e') (g : EventField) :
    e'.word g = if g = f then w else e.word g := by
  cases f with
  | kind =>
    obtain ⟨k, hk, rfl⟩ := Option.map_eq_some_iff.mp h
    cases kindOf_eq_some_iff.mp hk
    cases g <;> rfl
  | _ => cases h; cases g <;> rfl

theorem Voice.word_of_write {v v' : Voice} {f : VoiceField} (h : v.write f w = some v') (g : VoiceField) :
    v'.word g = if g = f then w else v.word g := by
  cases f with
  | isOn | slideActive =>
    obtain ⟨b, hb, rfl⟩ := Option.map_eq_some_iff.mp h
    cases flagOf_eq_some_iff.mp hb
    cases g <;> rfl
  | _ => cases h; cases g <;> rfl

theorem Envelope.word_of_write {e e' : Envelope} {f : EnvField} (h : e.write f w = some e') (g : EnvField) :
    e'.word g = if g = f then w else e.word g := by
  cases f with
  | stage =>
    obtain ⟨x, hx, rfl⟩ := Option.map_eq_some_iff.mp h
    cases stageOf_eq_some_iff.mp hx
    cases g <;> rfl
  | _ => cases h; cases g <;> rfl

/-! Writes to a state word. -/

theorem orBadValue_eq_ok_iff {α : Type} {x : Option α} {k : α → State} :
    orBadValue x k = .ok t ↔ ∃ y, x = some y ∧ k y = t := by
  cases x <;> simp [orBadValue]

theorem orBadValue_of_none_iff {α : Type} {x : Option α} {p : Prop} (hx : x = none ↔ p) (k : α → State) :
    (p → orBadValue x k = .error .badValue) ∧ (¬p → ∃ t, orBadValue x k = .ok t) := by
  rw [← hx]
  cases x <;> simp [orBadValue]

theorem writeLoc_of_readOnly (s : State) (w : Word) (h : l.readOnly = true) : s.writeLoc l w = .error .badAddr := by
  cases l with
  | faultcmd | devid | config => rfl
  | _ => cases h

theorem writeLoc_of_writable (s : State) (w : Word) (hl : l.readOnly = false) :
    (l.codes ≤ uint w → s.writeLoc l w = .error .badValue) ∧
      (¬l.codes ≤ uint w → ∃ t, s.writeLoc l w = .ok t) := by
  cases l with
  | faultcmd | devid | config => cases hl
  | status | seed | knob | activeNote => exact ⟨fun h => absurd w.isLt (Nat.not_lt.mpr h), fun _ => ⟨_, rfl⟩⟩
  | noteCount => exact ⟨fun h => if_neg (Nat.not_le.mpr h), fun h => ⟨_, if_pos (Nat.not_lt.mp h)⟩⟩
  | event => exact orBadValue_of_none_iff Event.write_eq_none_iff _
  | voice => exact orBadValue_of_none_iff Voice.write_eq_none_iff _
  | env => exact orBadValue_of_none_iff Envelope.write_eq_none_iff _

/-- The word written reads back, and every other word reads as before; STATUS is write-1-to-clear. -/
theorem readLoc_of_writeLoc (h : s.writeLoc l w = .ok t) (hl : l ≠ .status) (m : StateLoc) :
    t.readLoc m = if m = l then w else s.readLoc m := by
  cases l with
  | status => exact absurd rfl hl
  | faultcmd | devid | config => cases h
  | seed => cases h; cases m <;> rfl
  | noteCount =>
    simp only [State.writeLoc] at h
    split at h <;> cases h
    cases m <;> rfl
  | knob k =>
    cases h
    cases m with
    | knob j => simp [State.readLoc, Knobs.word_write]
    | _ => rfl
  | activeNote i =>
    cases h
    cases m with
    | activeNote j => simp [State.readLoc, Vector.getElem_set, Fin.val_inj, eq_comm]
    | _ => rfl
  | event k f =>
    obtain ⟨e, he, rfl⟩ := orBadValue_eq_ok_iff.mp h
    cases m with
    | event j g =>
      obtain rfl | hne := eq_or_ne j k <;>
        simp [State.readLoc, State.event_setEvent, Event.word_of_write he, *]
    | _ => rfl
  | voice v f =>
    obtain ⟨x, hx, rfl⟩ := orBadValue_eq_ok_iff.mp h
    cases m with
    | voice u g =>
      obtain rfl | hne := eq_or_ne u v <;>
        simp [State.readLoc, State.voice_setVoice, Voice.word_of_write hx, *]
    | _ => rfl
  | env e f =>
    obtain ⟨x, hx, rfl⟩ := orBadValue_eq_ok_iff.mp h
    cases m with
    | env u g =>
      obtain rfl | hne := eq_or_ne u e <;>
        simp [State.readLoc, State.env_setEnv, Envelope.word_of_write hx, *]
    | _ => rfl

/-! Writes to a state address. -/

theorem writeState_locAddr (s : State) (l : StateLoc) (w : Word) :
    s.writeState (locAddr l) w = s.writeLoc l w := by
  simp [State.writeState]

/-- A writable address is that of a word that is not read-only. -/
theorem exists_locAddr_of_not_unwritable (h : ¬Unwritable a) : ∃ l, a = locAddr l ∧ l.readOnly = false := by
  obtain ⟨l, hl⟩ := Option.ne_none_iff_exists'.mp (mt stateLoc_eq_none_iff.mp fun hu => h (.inl hu))
  obtain rfl := stateLoc_addr hl
  exact ⟨l, rfl, by simpa [unwritable_locAddr_iff] using h⟩

theorem writeState_of_unwritable (s : State) (w : Word) (h : Unwritable a) :
    s.writeState a w = .error .badAddr := by
  cases hl : stateLoc a with
  | none => simp [State.writeState, hl]
  | some l =>
    obtain rfl := stateLoc_addr hl
    rw [writeState_locAddr, writeLoc_of_readOnly s w (unwritable_locAddr_iff.mp h)]

theorem writeState_of_illegalValue (s : State) (h : ¬Unwritable a) (hw : IllegalValue a w) :
    s.writeState a w = .error .badValue := by
  obtain ⟨l, rfl, hl⟩ := exists_locAddr_of_not_unwritable h
  rw [writeState_locAddr]
  exact (writeLoc_of_writable s w hl).1 (illegalValue_locAddr_iff.mp hw)

theorem storedState_of_writeState (h : s.writeState a w = .ok t) : StoredState a w s t := by
  obtain ⟨l, hl, ht⟩ := writeState_loc h
  unfold StoredState
  split
  · next h0 =>
    subst h0; cases hl; cases ht; rfl
  · next h0 =>
    have hread : ∀ m, t.readLoc m = if m = l then w else s.readLoc m :=
      readLoc_of_writeLoc ht (by rintro rfl; exact h0 (stateLoc_addr hl))
    obtain ⟨regs, buf, epoch, cfg, mode, host, reply, -⟩ := writeLoc_frame ht
    refine ⟨?_, fun b hb => ?_, regs, State.bufRead_of_buf_eq buf epoch, cfg, mode, host, reply⟩
    · rw [State.readState, hl, Option.map_some, hread, if_pos rfl]
    · refine Option.map_congr fun m hm => ?_
      rw [hread, if_neg]
      rintro rfl
      exact hb (stateLoc_inj hm hl)

theorem writeState_of_legal (s : State) (h : ¬Unwritable a) (hw : ¬IllegalValue a w) :
    ∃ t, s.writeState a w = .ok t ∧ StoredState a w s t := by
  obtain ⟨l, rfl, hl⟩ := exists_locAddr_of_not_unwritable h
  obtain ⟨t, ht⟩ := (writeLoc_of_writable s w hl).2 (mt illegalValue_locAddr_iff.mpr hw)
  have ht : s.writeState (locAddr l) w = .ok t := (writeState_locAddr s l w).trans ht
  exact ⟨t, ht, storedState_of_writeState ht⟩

/-! Writes to BUF (10_state.md R34). -/

theorem storedBuf_bufWrite (s : State) (a : Nat) (w : Word) : StoredBuf a w s (s.bufWrite a w) :=
  ⟨rfl, s.bufRead_bufWrite_same a w, fun _ hb => s.bufRead_bufWrite_ne w hb⟩

/-! The host bus (20_memory.md R69). -/

/-- A read replies with the word looked up, or with some word where there is none. -/
theorem State.busRead_reply (s : State) (sp : Space) (a : Word) :
    ∃ r, s.busRead sp a = { s with busReply := some r, busDraws := (s.busRead sp a).busDraws } ∧
      ∀ v, s.busLookup sp a = some v → v = r := by
  unfold State.busRead
  cases s.busLookup sp a with
  | some v => exact ⟨v, rfl, fun _ h => (Option.some.inj h).symm⟩
  | none => exact ⟨_, rfl, fun _ h => nomatch h⟩

theorem bufLoc_uint_of_lt {c : Config} {a : Word} (h : (uint a : Int) < c.bufWords) :
    bufLoc c (uint a) = some (uint a) :=
  bufLoc_eq.mpr ⟨rfl, Int.ofNat_lt.mp h⟩

theorem bufLoc_eq_none_of_le {c : Config} {x : Int} (h : (c.bufWords : Int) ≤ x) : bufLoc c x = none :=
  if_neg fun hx => Int.not_lt.mpr h hx.2

theorem State.busWrite_state_of_error {c : Cause} {a : Word} (h : s.writeState (uint a) w = .error c) :
    s.busWrite .state a w = s := by
  simp [State.busWrite, h]

theorem State.busWrite_state_of_ok {a : Word} (h : s.writeState (uint a) w = .ok t) : s.busWrite .state a w = t := by
  simp [State.busWrite, h]

/-- Settles O49: a read replies with the word of the lookup that LDS and LDB make, a write is that of STS and STB, and
where these fault the block stays as it is. -/
theorem hostBusAccess : Obligations.HostBusAccess := by
  rintro s a w n rfl
  refine ⟨?_, ?_, fun h => ?_, fun h hw => ?_, fun h => ?_, fun h => ?_⟩
  · obtain ⟨r, hr, hv⟩ := s.busRead_reply .state a
    refine ⟨_, r, rfl, hr, fun h => ?_⟩
    obtain ⟨v, hv'⟩ := Option.ne_none_iff_exists'.mp (mt State.readState_eq_none_iff.mp h)
    rw [hv', hv v hv']
  · obtain ⟨r, hr, hv⟩ := s.busRead_reply .buf a
    refine ⟨_, r, rfl, hr, fun h => (hv _ ?_).symm⟩
    rw [State.busLookup, bufLoc_uint_of_lt h, Option.map_some]
  · by_cases hu : Unwritable (uint a)
    · exact congrArg _ (State.busWrite_state_of_error (writeState_of_unwritable s w hu))
    · exact congrArg _ (State.busWrite_state_of_error (writeState_of_illegalValue s hu (h.resolve_left hu)))
  · obtain ⟨t, ht, hst⟩ := writeState_of_legal s h hw
    exact ⟨t, congrArg _ (State.busWrite_state_of_ok ht), hst⟩
  · simp [serve, State.busWrite, bufLoc_eq_none_of_le h]
  · refine ⟨s.bufWrite (uint a) w, ?_, storedBuf_bufWrite s (uint a) w⟩
    simp [serve, State.busWrite, bufLoc_uint_of_lt h]

end Sys2Proof.Machine
end

section
/-! PROOF. Encoding (30_encoding.md R81 to R93): a word decodes to a command exactly when it is the word of that command
and the command is well-formed. -/

namespace Sys2Proof

/-! The opcode map and the encoder agree, row by row. -/

/-- Each command's row reads back what the row's format wrote; only VON's reader asks for more, its quad (R85). -/
theorem decodeFields_encodeFields {i : Instr} (hi : i.wf = true) : decodeFields (encodeFields i) = .ok i := by
  cases i with
  | nop | anoff => rfl
  | lil | lih => exact (Fields.fmtIRd_ok (f := encIRd _ _ _ _)).mpr ⟨_, _, rfl, rfl⟩
  | add | sub | mulS | mulH | mulQ | divS | divH | divQ | imul | idiv | ash =>
    exact Fields.fmtR3M_ok.mpr ⟨_, _, _, _, rfl, rfl⟩
  | addi | lds | sts | ldb | stb => exact Fields.fmtI_ok.mpr ⟨_, _, _, rfl, rfl⟩
  | shli | srai | srli => exact Fields.fmtSh_ok.mpr ⟨_, _, _, rfl, rfl⟩
  | floorS | floorH | floorQ | fractS | fractH | fractQ | sqrtS | sqrtH | sqrtQ | sinS | sinH | cosS | cosH
  | sq135S | sq135H | sq35S | sq35H | ntof | fton => exact Fields.fmtR2_ok.mpr ⟨_, _, rfl, rfl⟩
  | cvtSS | cvtSH | cvtSQ | cvtHS | cvtHH | cvtHQ | cvtQS | cvtQH | cvtQQ =>
    exact Fields.fmtCvt_ok.mpr ⟨_, _, _, _, by simp, rfl⟩
  | phaccS | phaccH | phaccQ | run => exact Fields.fmtR3_ok.mpr ⟨_, _, _, rfl, rfl⟩
  | tliS | tliH => exact Fields.fmtTli_ok.mpr ⟨_, _, _, rfl, rfl⟩
  | exp2S | exp2H | exp10S | exp10H => exact Fields.fmtR2M_ok.mpr ⟨_, _, _, rfl, rfl⟩
  | romrdSin | romrdExp2 | romrdNote =>
    exact (Fields.fmtRom_ok (kS := .romrdSin) (kE := .romrdExp2) (kN := .romrdNote)).mpr ⟨_, _, _, by simp, rfl⟩
  | db2g | g2db | ev2s | s2ev | vol2s | s2vol | p2b | p2f | p2q | p2st =>
    exact Fields.fmtConv_ok.mpr ⟨_, _, _, _, by simp, rfl⟩
  | rand | rget => exact Fields.fmtRd_ok.mpr ⟨_, rfl, rfl⟩
  | rseed => exact Fields.fmtRs1_ok.mpr ⟨_, rfl, rfl⟩
  | etrig | eoff | eadv | voff => exact Fields.fmtV_ok.mpr ⟨_, rfl, rfl⟩
  | eval | vgetn => exact Fields.fmtVRd_ok.mpr ⟨_, _, rfl, rfl⟩
  | von => exact Fields.fmtVQuad_ok.mpr ⟨_, _, hi, rfl, rfl⟩
  | vslide | vphadv => exact Fields.fmtVRs1_ok.mpr ⟨_, _, rfl, rfl⟩
  | noteon => exact Fields.fmtT_ok.mpr ⟨_, _, _, rfl, rfl⟩
  | noteoff => exact Fields.fmtRs12_ok.mpr ⟨_, _, rfl, rfl⟩

/-- What a row's readers accept is the word of the command they answer (R86, R87). -/
theorem decodeFields_sound {f : Fields} {i : Instr} (h : decodeFields f = .ok i) :
    f = encodeFields i ∧ i.wf = true := by
  obtain ⟨op, w, rd, rs1, imm⟩ := f
  match op with
  | 0x01#6 | 0x32#6 =>
    obtain ⟨rfl, rfl, hf⟩ := (Fields.byW1_ok.mp h).imp_right Fields.fmtN1_ok.mp
    exact ⟨hf, rfl⟩
  | 0x02#6 | 0x03#6 =>
    obtain ⟨rfl, _, _, rfl, hf⟩ := (Fields.byW1_ok.mp h).imp_right Fields.fmtIRd_ok.mp
    exact ⟨hf, rfl⟩
  | 0x04#6 | 0x05#6 | 0x09#6 | 0x0A#6 | 0x0B#6 =>
    obtain ⟨rfl, _, _, _, _, rfl, hf⟩ := (Fields.byW1_ok.mp h).imp_right Fields.fmtR3M_ok.mp
    exact ⟨hf, rfl⟩
  | 0x06#6 | 0x38#6 | 0x39#6 | 0x3A#6 | 0x3B#6 =>
    obtain ⟨rfl, _, _, _, rfl, hf⟩ := (Fields.byW1_ok.mp h).imp_right Fields.fmtI_ok.mp
    exact ⟨hf, rfl⟩
  | 0x07#6 | 0x08#6 =>
    obtain ⟨rfl, h⟩ | ⟨rfl, h⟩ | ⟨rfl, h⟩ := Fields.byW3_ok.mp h <;>
    · obtain ⟨_, _, _, _, rfl, hf⟩ := Fields.fmtR3M_ok.mp h
      exact ⟨hf, rfl⟩
  | 0x0C#6 | 0x0D#6 | 0x0E#6 =>
    obtain ⟨rfl, _, _, _, rfl, hf⟩ := (Fields.byW1_ok.mp h).imp_right Fields.fmtSh_ok.mp
    exact ⟨hf, rfl⟩
  | 0x0F#6 | 0x10#6 | 0x11#6 =>
    obtain ⟨rfl, h⟩ | ⟨rfl, h⟩ | ⟨rfl, h⟩ := Fields.byW3_ok.mp h <;>
    · obtain ⟨_, _, rfl, hf⟩ := Fields.fmtR2_ok.mp h
      exact ⟨hf, rfl⟩
  | 0x12#6 =>
    obtain ⟨rfl, h⟩ | ⟨rfl, h⟩ | ⟨rfl, h⟩ := Fields.byW3_ok.mp h <;>
    · obtain ⟨_, _, _, _, ⟨rfl, rfl⟩ | ⟨rfl, rfl⟩ | ⟨rfl, rfl⟩, hf⟩ := Fields.fmtCvt_ok.mp h <;> exact ⟨hf, rfl⟩
  | 0x13#6 =>
    obtain ⟨rfl, h⟩ | ⟨rfl, h⟩ | ⟨rfl, h⟩ := Fields.byW3_ok.mp h <;>
    · obtain ⟨_, _, _, rfl, hf⟩ := Fields.fmtR3_ok.mp h
      exact ⟨hf, rfl⟩
  | 0x14#6 =>
    obtain ⟨rfl, h⟩ | ⟨rfl, h⟩ := Fields.byW2_ok.mp h <;>
    · obtain ⟨_, _, _, rfl, hf⟩ := Fields.fmtTli_ok.mp h
      exact ⟨hf, rfl⟩
  | 0x15#6 | 0x16#6 | 0x19#6 | 0x1A#6 =>
    obtain ⟨rfl, h⟩ | ⟨rfl, h⟩ := Fields.byW2_ok.mp h <;>
    · obtain ⟨_, _, rfl, hf⟩ := Fields.fmtR2_ok.mp h
      exact ⟨hf, rfl⟩
  | 0x17#6 | 0x18#6 =>
    obtain ⟨rfl, h⟩ | ⟨rfl, h⟩ := Fields.byW2_ok.mp h <;>
    · obtain ⟨_, _, _, rfl, hf⟩ := Fields.fmtR2M_ok.mp h
      exact ⟨hf, rfl⟩
  | 0x1B#6 | 0x1C#6 =>
    obtain ⟨rfl, _, _, rfl, hf⟩ := (Fields.byW1_ok.mp h).imp_right Fields.fmtR2_ok.mp
    exact ⟨hf, rfl⟩
  | 0x1D#6 =>
    obtain ⟨rfl, h⟩ := Fields.byW1_ok.mp h
    obtain ⟨_, _, _, ⟨rfl, rfl⟩ | ⟨rfl, rfl⟩ | ⟨rfl, rfl⟩, hf⟩ := Fields.fmtRom_ok.mp h <;> exact ⟨hf, rfl⟩
  | 0x1E#6 =>
    obtain ⟨rfl, h⟩ := Fields.byW1_ok.mp h
    obtain ⟨_, _, _, _, ⟨rfl, rfl⟩ | ⟨rfl, rfl⟩ | ⟨rfl, rfl⟩ | ⟨rfl, rfl⟩ | ⟨rfl, rfl⟩ | ⟨rfl, rfl⟩ | ⟨rfl, rfl⟩ |
      ⟨rfl, rfl⟩ | ⟨rfl, rfl⟩ | ⟨rfl, rfl⟩, hf⟩ := Fields.fmtConv_ok.mp h <;> exact ⟨hf, rfl⟩
  | 0x20#6 | 0x22#6 =>
    obtain ⟨rfl, _, rfl, hf⟩ := (Fields.byW1_ok.mp h).imp_right Fields.fmtRd_ok.mp
    exact ⟨hf, rfl⟩
  | 0x21#6 =>
    obtain ⟨rfl, _, rfl, hf⟩ := (Fields.byW1_ok.mp h).imp_right Fields.fmtRs1_ok.mp
    exact ⟨hf, rfl⟩
  | 0x24#6 | 0x25#6 | 0x27#6 | 0x2B#6 =>
    obtain ⟨rfl, _, rfl, hf⟩ := (Fields.byW1_ok.mp h).imp_right Fields.fmtV_ok.mp
    exact ⟨hf, rfl⟩
  | 0x26#6 | 0x2D#6 =>
    obtain ⟨rfl, _, _, rfl, hf⟩ := (Fields.byW1_ok.mp h).imp_right Fields.fmtVRd_ok.mp
    exact ⟨hf, rfl⟩
  | 0x2A#6 =>
    obtain ⟨rfl, _, _, hquad, rfl, hf⟩ := (Fields.byW1_ok.mp h).imp_right Fields.fmtVQuad_ok.mp
    exact ⟨hf, hquad⟩
  | 0x2C#6 | 0x2F#6 =>
    obtain ⟨rfl, _, _, rfl, hf⟩ := (Fields.byW1_ok.mp h).imp_right Fields.fmtVRs1_ok.mp
    exact ⟨hf, rfl⟩
  | 0x30#6 =>
    obtain ⟨rfl, _, _, _, rfl, hf⟩ := (Fields.byW1_ok.mp h).imp_right Fields.fmtT_ok.mp
    exact ⟨hf, rfl⟩
  | 0x31#6 =>
    obtain ⟨rfl, _, _, rfl, hf⟩ := (Fields.byW1_ok.mp h).imp_right Fields.fmtRs12_ok.mp
    exact ⟨hf, rfl⟩
  | 0x33#6 =>
    obtain ⟨rfl, _, _, _, rfl, hf⟩ := (Fields.byW1_ok.mp h).imp_right Fields.fmtR3_ok.mp
    exact ⟨hf, rfl⟩
  | 0x00#6 | 0x1F#6 | 0x23#6 | 0x28#6 | 0x29#6 | 0x2E#6 | 0x34#6 | 0x35#6 | 0x36#6 | 0x37#6 | 0x3C#6 | 0x3D#6
  | 0x3E#6 | 0x3F#6 => cases h

/-! Words. -/

theorem decode_encode {i : Instr} (hi : i.wf = true) : decode (encode i) = .ok i := by
  rw [decode, encode, Fields.ofWord_toWord, decodeFields_encodeFields hi]

theorem decode_of_encode_eq {w : Word} {i : Instr} (h : encode i = w) (hi : i.wf = true) : decode w = .ok i :=
  h ▸ decode_encode hi

theorem ofWord_of_decode {w : Word} {i : Instr} (h : decode w = .ok i) : Fields.ofWord w = encodeFields i :=
  (decodeFields_sound h).1

theorem encode_of_decode {w : Word} {i : Instr} (h : decode w = .ok i) : encode i = w := by
  rw [encode, ← ofWord_of_decode h, Fields.toWord_ofWord]

/-! Bytes (20_memory.md R62). -/

theorem byteOf_append (c : Word) : byteOf c 3 ++ byteOf c 2 ++ byteOf c 1 ++ byteOf c 0 = c := by
  ext i hi
  simp only [byteOf]
  grind

theorem decodeBytes_of_decode {c : Word} {i : Instr} (h : decode c = .ok i) (rest : List Byte) :
    decodeBytes (wordBytes c ++ rest) = .ok (i, rest) := by
  simp [wordBytes, decodeBytes, byteOf_append, h]

/-- Settles O2: every row's format reads its own fields back, and a word is rebuilt from its bytes. -/
theorem encodedCommandDecodesBack : Obligations.EncodedCommandDecodesBack := fun _ rest hi =>
  ⟨decode_encode hi, decodeBytes_of_decode (decode_encode hi) rest⟩

/-- Settles O3: the readers of a row accept the row's own words only. -/
theorem decodedWordIsTheCommandsWord : Obligations.DecodedWordIsTheCommandsWord := fun _ _ h =>
  ⟨encode_of_decode h, (decodeFields_sound h).2⟩

/-- Settles O1: each sample word is the encoding of its command. -/
theorem sampleWordsDecode : Obligations.SampleWordsDecode := by
  refine ⟨?_, ?_, ?_, ?_, ?_, ?_, ?_, ?_, ?_, ?_, ?_, ?_, ?_⟩ <;> exact decode_of_encode_eq (by decide) rfl

/-! Illegal words: what the accepted fields of a row say about the word. -/

theorem exists_error_of_ne_ok {x : Except DecodeError Instr} (h : ∀ i, x ≠ .ok i) : ∃ e, x = .error e := by
  cases x with
  | error e => exact ⟨e, rfl⟩
  | ok i => exact absurd rfl (h i)

/-- A word of opcode `op` does not decode when the readers of `op`'s row refuse its fields. -/
theorem exists_error_of_op {w : Word} {op : BitVec 6} (hop : w.extractLsb' 26 6 = op)
    (h : ∀ i, decodeFields { Fields.ofWord w with op := op } ≠ .ok i) : ∃ e, decode w = .error e := by
  subst hop
  exact exists_error_of_ne_ok h

theorem ofWord_imm_extractLsb' (w : Word) {k n : Nat} (h : k + n ≤ 16) :
    (Fields.ofWord w).imm.extractLsb' k n = w.extractLsb' k n := by
  ext i hi
  simp only [Fields.ofWord]
  grind

theorem encodeFields_w_ne_three (i : Instr) : (encodeFields i).w ≠ 0b11 := by cases i <;> nofun

theorem Fields.m_lt_of_fmtR3M {f : Fields} {k : Reg → Reg → Reg → Ovf → Instr} {i : Instr}
    (h : f.fmtR3M k = .ok i) : f.m.toNat < 2 := by
  obtain ⟨m, hm, -⟩ := needOvf_ok.mp h
  rw [hm]
  cases m <;> decide

theorem Fields.tw_ne_three_of_fmtCvt {f : Fields} {kS kH kQ : Reg → Reg → Ovf → Instr} {i : Instr}
    (h : f.fmtCvt kS kH kQ = .ok i) : f.imm.extractLsb' 0 2 ≠ 0b11 := by
  obtain ⟨_, _, _, tw, htw, hf⟩ := fmtCvt_ok.mp h
  rw [hf, append_low]
  obtain ⟨-, rfl⟩ | ⟨-, rfl⟩ | ⟨-, rfl⟩ := htw <;> decide

theorem Fields.table_ne_three_of_fmtRom {f : Fields} {kS kE kN : Reg → Reg → Instr} {i : Instr}
    (h : f.fmtRom kS kE kN = .ok i) : f.imm.extractLsb' 0 2 ≠ 0b11 := by
  obtain ⟨_, _, t, ht, hf⟩ := fmtRom_ok.mp h
  rw [hf, append_low]
  obtain ⟨-, rfl⟩ | ⟨-, rfl⟩ | ⟨-, rfl⟩ := ht <;> decide

theorem Fields.fn_lt_of_fmtConv {f : Fields} {i : Instr} (h : f.fmtConv = .ok i) :
    (f.imm.extractLsb' 0 4).toNat < 10 := by
  obtain ⟨_, _, _, fn, hfn, hf⟩ := fmtConv_ok.mp h
  rw [hf, append_low]
  obtain ⟨-, rfl⟩ | ⟨-, rfl⟩ | ⟨-, rfl⟩ | ⟨-, rfl⟩ | ⟨-, rfl⟩ | ⟨-, rfl⟩ | ⟨-, rfl⟩ | ⟨-, rfl⟩ | ⟨-, rfl⟩ | ⟨-, rfl⟩ :=
    hfn <;> decide

theorem Fields.rs1_le_of_fmtVQuad {f : Fields} {k : Reg → VoiceIdx → Instr} {i : Instr}
    (h : f.fmtVQuad k = .ok i) : f.rs1.toNat ≤ 12 := by
  obtain ⟨_, _, hquad, -, hf⟩ := fmtVQuad_ok.mp h
  rw [hf]
  exact of_decide_eq_true hquad

theorem decodeFields_of_illegal_op {f : Fields}
    (h : f.op ∈ ([0x00, 0x1F, 0x23, 0x28, 0x29, 0x2E, 0x34, 0x35, 0x36, 0x37, 0x3C, 0x3D, 0x3E, 0x3F] :
      List (BitVec 6))) : decodeFields f = .error .opcode := by
  obtain ⟨op, w, rd, rs1, imm⟩ := f
  change op ∈ _ at h
  fin_cases h <;> rfl

end Sys2Proof

namespace Sys2Proof.Machine

open Sys2Proof

theorem runCommand_of_decode_error {s : State} {w : Word} {e : DecodeError} (hm : s.mode = .ready)
    (hd : decode w = .error e) : runCommand w s = .next (takeFault w .illegal s) := by
  simp [runCommand, hm, hd]

/-- Settles O4: a word that decodes passes the checks of its row, and a word that fails one takes the fault. -/
theorem illegalWordsFault : Obligations.IllegalWordsFault := by
  intro w
  refine ⟨fun hop => ⟨_, decodeFields_of_illegal_op hop⟩, fun hw => exists_error_of_ne_ok fun i h => ?_,
    fun hop hfn => exists_error_of_op hop fun i h => ?_, fun hop hq => exists_error_of_op hop fun i h => ?_,
    fun hop hm => exists_error_of_op hop fun i h => ?_, fun hop htw => exists_error_of_op hop fun i h => ?_,
    fun hop ht => exists_error_of_op hop fun i h => ?_, fun s e hm he => ?_⟩
  · exact encodeFields_w_ne_three i (ofWord_of_decode h ▸ hw)
  · rw [← ofWord_imm_extractLsb' w (by decide)] at hfn
    exact Nat.not_lt.mpr hfn (Fields.fn_lt_of_fmtConv (Fields.byW1_ok.mp h).2)
  · exact Nat.not_lt.mpr (Fields.rs1_le_of_fmtVQuad (Fields.byW1_ok.mp h).2) hq
  · rw [← ofWord_imm_extractLsb' w (by decide)] at hm
    exact Nat.not_lt.mpr hm (Fields.m_lt_of_fmtR3M (Fields.byW1_ok.mp h).2)
  · rw [← ofWord_imm_extractLsb' w (by decide)] at htw
    obtain ⟨-, h⟩ | ⟨-, h⟩ | ⟨-, h⟩ := Fields.byW3_ok.mp h <;> exact Fields.tw_ne_three_of_fmtCvt h htw
  · rw [← ofWord_imm_extractLsb' w (by decide)] at ht
    exact Fields.table_ne_three_of_fmtRom (Fields.byW1_ok.mp h).2 ht
  · exact ⟨_, runCommand_of_decode_error hm he, rfl⟩

end Sys2Proof.Machine
end

section
/-! PROOF. The scalar ALU (40_alu.md R113 to R131): each command's word decodes to it, and each command writes the value
of its rule. An operation at a width is proved once for every width. -/

namespace Sys2Proof.Machine

open Sys2Proof

variable {i : Instr} {s : State} {rd rs1 rs2 : Reg} {m : Ovf}

/-! Words of the ALU's formats, as claims write them (30_encoding.md R81). -/

theorem encode_of_encR3M {op : BitVec 6} {w : BitVec 2} (h : encodeFields i = encR3M op w rd rs1 rs2 m) :
    encode i = wordR op w rd rs1 rs2 (modeBits m) := by
  rw [encode, h, modeBits_eq, wordR_eq]; rfl

theorem encode_of_encR2 {op : BitVec 6} {w : BitVec 2} (h : encodeFields i = encR2 op w rd rs1) :
    encode i = wordR op w rd rs1 0 0 := by
  rw [encode, h, wordR_eq, ← immR_zero]; rfl

theorem encode_of_encCvt {w tw : BitVec 2} (h : encodeFields i = encCvt w rd rs1 m tw) :
    encode i = wordI 0x12 w rd rs1 (0#12 ++ modeBits m ++ tw) := by
  rw [encode, h, modeBits_eq]; rfl

theorem decode_of_encR3M {op : BitVec 6} {w : BitVec 2} (h : encodeFields i = encR3M op w rd rs1 rs2 m)
    (hwf : i.wf = true) : decode (wordR op w rd rs1 rs2 (modeBits m)) = .ok i :=
  decode_of_encode_eq (encode_of_encR3M h) hwf

theorem decode_of_encR2 {op : BitVec 6} {w : BitVec 2} (h : encodeFields i = encR2 op w rd rs1)
    (hwf : i.wf = true) : decode (wordR op w rd rs1 0 0) = .ok i :=
  decode_of_encode_eq (encode_of_encR2 h) hwf

/-- A fault of a command stores the command's word. -/
theorem faultedBy_of_encode_eq {word : Word} (h : encode i = word) (c : Cause) (s : State) :
    FaultedBy word (causeCode c) s (faultOf i c s) :=
  h ▸ faultedBy_faultOf i c s

/-! Moves. -/

theorem sint_toWord_sext16 (imm : BitVec 16) : sint (toWord (sext16 imm)) = imm.toInt := by
  refine sint_toWord_of_fits ⟨?_, ?_⟩
  · exact le_trans (by decide) (BitVec.le_toInt imm)
  · exact le_trans (BitVec.toInt_lt (x := imm)).le (by decide)

/-- Settles O5: the moves write a whole word, and LIL's sign-extended immediate fits one. -/
theorem nopAndImmediateMoves : Obligations.NopAndImmediateMoves := fun s rd imm =>
  ⟨⟨decode_of_encode_eq (by decide) rfl, rfl⟩,
    ⟨decode_of_encode_eq rfl rfl, _, rfl, wroteInt_setReg s rd (sint_toWord_sext16 imm)⟩,
    ⟨decode_of_encode_eq rfl rfl, _, rfl, wrote_setReg s rd _⟩⟩

/-! Sums and products. -/

/-- Settles O6: the sum or the difference is applied. -/
theorem addAndSubtract : Obligations.AddAndSubtract := fun s rd _ _ m _ =>
  ⟨⟨decode_of_encode_eq rfl rfl, _, rfl, applied_setApply s rd .wrap _⟩,
    ⟨decode_of_encR3M rfl rfl, _, rfl, applied_setApply s rd m _⟩,
    ⟨decode_of_encR3M rfl rfl, _, rfl, applied_setApply s rd m _⟩⟩

theorem mulAt_applied (w : Width) (rd rs1 rs2 : Reg) (m : Ovf) (s : State) :
    ∃ t, mulAt w rd rs1 rs2 m s = .next t ∧ Applied s rd m ((s.x rs1 * s.x rs2).fdiv (2 ^ frac s.cfg w)) t :=
  ⟨_, rfl, asr_eq_fdiv _ _ ▸ applied_setApply s rd m _⟩

/-- Settles O7: MUL's arithmetic shift of the exact product is its floor division by 2^F. -/
theorem multiply : Obligations.Multiply := by
  intro s rd rs1 rs2 m
  refine ⟨fun p hp => ?_, decode_of_encR3M rfl rfl, _, rfl, applied_setApply s rd m _⟩
  fin_cases hp <;> exact ⟨decode_of_encR3M rfl rfl, mulAt_applied _ rd rs1 rs2 m s⟩

/-! Quotients. -/

/-- DIV at a width and IDIV: a zero divisor faults, any other applies the quotient `q`. -/
theorem exec_div_cases {word : Word} {q : Int} (hi : encode i = word)
    (hx : exec i s = .next (if s.x rs2 = 0 then faultOf i .divZero s else s.setApply rd m q)) :
    (s.x rs2 = 0 → ∃ t, exec i s = .next t ∧ FaultedBy word 3 s t) ∧
    (s.x rs2 ≠ 0 → ∃ t, exec i s = .next t ∧ Applied s rd m q t) := by
  refine ⟨fun h => ?_, fun h => ?_⟩
  · rw [hx, if_pos h]; exact ⟨_, rfl, faultedBy_of_encode_eq hi .divZero s⟩
  · rw [hx, if_neg h]; exact ⟨_, rfl, applied_setApply s rd m q⟩

theorem divAt_eq (i : Instr) (w : Width) (rd rs1 rs2 : Reg) (m : Ovf) (s : State) :
    divAt i w rd rs1 rs2 m s = .next (if s.x rs2 = 0 then faultOf i .divZero s
      else s.setApply rd m ((s.x rs1 * 2 ^ frac s.cfg w).tdiv (s.x rs2))) := by
  rw [divAt, shl_eq, tdiv]

/-- Settles O8: DIV scales the dividend by 2^F first, IDIV does not; both fault on a zero divisor alone. -/
theorem divide : Obligations.Divide := by
  intro s rd rs1 rs2 m
  refine ⟨fun p hp => ?_, decode_of_encR3M rfl rfl, exec_div_cases (encode_of_encR3M rfl) rfl⟩
  fin_cases hp <;>
    exact ⟨decode_of_encR3M rfl rfl, exec_div_cases (encode_of_encR3M rfl) (divAt_eq _ _ rd rs1 rs2 m s)⟩

/-! Shifts. -/

/-- What `setApply` writes depends on the applied value and its overflow only. -/
theorem State.setApply_congr {z z' : Int} (hv : applyVal m z = applyVal m z') (ho : overflows m z = overflows m z') :
    s.setApply rd m z = s.setApply rd m z' := by
  rw [State.setApply, State.setApply, applyWord, applyWord, hv, ho]

/-- Cutting a left shift at 64 places changes neither the applied value nor its overflow (log 14). -/
theorem setApply_shl_min (s : State) (rd : Reg) (m : Ovf) (a : Int) (n : Nat) :
    s.setApply rd m (shl a (min n 64)) = s.setApply rd m (shl a n) := by
  obtain hn | hn := le_total n 64
  · rw [min_eq_left hn]
  · rw [min_eq_right hn]
    obtain ⟨hv, ho⟩ := shl_far m a (n := 64) (k := n) (by decide) (by omega)
    exact State.setApply_congr hv ho

/-- Cutting a right shift of a word's value at 64 places changes nothing (log 14). -/
theorem asr_min {a : Int} (h : fits32 a) (n : Nat) : asr a (min n 64) = asr a n := by
  obtain hn | hn := le_total n 64
  · rw [min_eq_left hn]
  · rw [min_eq_right hn, asr_far h (by decide), asr_far h (by omega)]

theorem ashValue_of_nonneg (a : Int) {c : Int} (h : 0 ≤ c) : ashValue a c = shl a (min c.toNat 64) := if_pos h

theorem ashValue_of_neg (a : Int) {c : Int} (h : c < 0) : ashValue a c = asr a (min (-c).toNat 64) :=
  if_neg (not_le.mpr h)

theorem State.x_fits (s : State) (r : Reg) : fits32 (s.x r) := sint_bounds _

/-- Settles O9: past 64 places neither shift changes its result, so the model's cut is exact. -/
theorem arithmeticShift : Obligations.ArithmeticShift := by
  intro s rd rs1 rs2 m
  refine ⟨decode_of_encR3M rfl rfl, _, rfl, fun h => ?_, fun h => ?_⟩
  · rw [ashValue_of_nonneg _ h, setApply_shl_min, shl_eq]
    exact applied_setApply s rd m _
  · rw [ashValue_of_neg _ h, asr_min (s.x_fits rs1), asr_eq_fdiv]
    exact applied_setApply s rd m _

theorem shiftLeft_eq_ofNat (w : Word) (n : Nat) : w <<< n = BitVec.ofNat 32 (uint w * 2 ^ n) := by
  apply BitVec.eq_of_toNat_eq
  rw [BitVec.toNat_shiftLeft, BitVec.toNat_ofNat, Nat.shiftLeft_eq]

theorem toWord_fdiv_pow2 (u n : Nat) : toWord (fdiv u (pow2 n)) = BitVec.ofNat 32 (u / 2 ^ n) := by
  rw [fdiv, pow2, ← Int.ofNat_fdiv, toWord, BitVec.ofInt_natCast]

/-- Settles O10: the left shift multiplies modulo 2^32, the right shifts divide the signed or the unsigned value. -/
theorem immediateShifts : Obligations.ImmediateShifts := by
  intro s rd rs1 sh
  refine ⟨⟨decode_of_encode_eq rfl rfl, _, rfl, ?_⟩, ⟨decode_of_encode_eq rfl rfl, _, rfl, ?_⟩,
    decode_of_encode_eq rfl rfl, _, rfl, ?_⟩
  · exact shiftLeft_eq_ofNat _ _ ▸ wrote_setReg s rd _
  · rw [← asr_eq_fdiv]
    exact wroteInt_setReg s rd (sint_toWord_of_fits (asr_fits _ (s.x_fits rs1)))
  · exact toWord_fdiv_pow2 _ _ ▸ wrote_setReg s rd _

/-! Floor and fractional part. -/

theorem fract_eq (n : Nat) (a : Int) : fract n a = a - a.fdiv (2 ^ n) * 2 ^ n := by
  rw [fract, fmod, fdiv, pow2_eq, mul_comm]

theorem fract_eq_emod (n : Nat) (a : Int) : fract n a = a % 2 ^ n := fmod_pow2 a n

theorem fract_bounds (n : Nat) (a : Int) : 0 ≤ fract n a ∧ fract n a < 2 ^ n := by
  rw [fract_eq_emod]
  exact ⟨Int.emod_nonneg _ (by positivity), Int.emod_lt_of_pos _ (by positivity)⟩

theorem two_pow_le_maxWord {n : Nat} (hn : n ≤ 30) : (2 : Int) ^ n ≤ maxWord :=
  (pow_le_pow_right₀ (by decide) hn).trans (by decide)

theorem fract_fits {n : Nat} (hn : n ≤ 30) (a : Int) : fits32 (fract n a) :=
  have ⟨h0, h1⟩ := fract_bounds n a
  ⟨le_trans (by decide) h0, h1.le.trans (two_pow_le_maxWord hn)⟩

theorem floor_eq (n : Nat) (a : Int) : a - fract n a = a.fdiv (2 ^ n) * 2 ^ n := by
  rw [fract_eq, sub_sub_cancel]

/-- The floor of a word's value is a word's value, because -2^31 is a multiple of 2^F (40_alu.md R127). -/
theorem floor_fits {n : Nat} (hn : n ≤ 30) {a : Int} (h : fits32 a) : fits32 (a - fract n a) := by
  obtain ⟨hlo, hhi⟩ := h
  obtain ⟨hf, -⟩ := fract_bounds n a
  obtain ⟨k, hk⟩ : (2 : Int) ^ n ∣ minWord := (pow_dvd_pow 2 hn).trans (by decide)
  refine ⟨?_, (Int.sub_le_self a hf).trans hhi⟩
  have hp : (0 : Int) < 2 ^ n := by positivity
  rw [floor_eq, fdiv_eq_ediv a hp.le, hk, mul_comm]
  rw [hk, mul_comm] at hlo
  exact Int.mul_le_mul_of_nonneg_right ((Int.le_ediv_iff_mul_le hp).mpr hlo) hp.le

theorem floorAt_wrote (hl : s.cfg.legal = true) (w : Width) (rd rs1 : Reg) :
    ∃ t, floorAt w rd rs1 s = .next t ∧
      WroteInt s rd ((s.x rs1).fdiv (2 ^ frac s.cfg w) * 2 ^ frac s.cfg w) t :=
  ⟨_, rfl, floor_eq _ _ ▸ wroteInt_setResult s rd (floor_fits (frac_le hl w) (s.x_fits rs1))⟩

theorem fractAt_wrote (hl : s.cfg.legal = true) (w : Width) (rd rs1 : Reg) :
    ∃ t, fractAt w rd rs1 s = .next t ∧
      WroteInt s rd (s.x rs1 - (s.x rs1).fdiv (2 ^ frac s.cfg w) * 2 ^ frac s.cfg w) t ∧
      0 ≤ t.x rd ∧ t.x rd < 2 ^ frac s.cfg w := by
  have hw := wroteInt_setResult s rd (fract_fits (frac_le hl w) (s.x rs1))
  have ⟨_, hx, _⟩ := hw
  refine ⟨_, rfl, fract_eq _ _ ▸ hw, ?_⟩
  rw [hx]
  exact fract_bounds _ _

/-- Settles O11: x - fract(x) is the floor division of x by 2^F times 2^F, and fract(x) is what that leaves. -/
theorem floorAndFraction : Obligations.FloorAndFraction := by
  intro s rd rs1 hl
  refine ⟨fun p hp => ?_, fun p hp => ?_⟩
  · fin_cases hp <;> exact ⟨decode_of_encR2 rfl rfl, floorAt_wrote hl _ rd rs1⟩
  · fin_cases hp <;> exact ⟨decode_of_encR2 rfl rfl, fractAt_wrote hl _ rd rs1⟩

/-! Square root. -/

/-- The root of a word's value is below 2^16, so it stays a word's value when half the fractional bits are put back. -/
theorem rootValue_fits {c : Config} (hl : c.legal = true) (w : Width) {a : Int} (h0 : 0 ≤ a) (h1 : a ≤ maxWord) :
    fits32 (rootValue c w a) := by
  obtain ⟨hsq, -⟩ := isRoot_isqrt h0 h1
  have hroot : (isqrt a.toNat : Int) ≤ 46340 := by
    by_contra! h
    nlinarith
  have hpow : (2 : Int) ^ (frac c w / 2) ≤ 2 ^ 15 :=
    pow_le_pow_right₀ (by decide) (Nat.div_le_div_right (frac_le hl w))
  rw [rootValue, shl_eq]
  refine ⟨le_trans (by decide) (by positivity : (0 : Int) ≤ _), ?_⟩
  calc (isqrt a.toNat : Int) * 2 ^ (frac c w / 2)
      ≤ 46340 * 2 ^ 15 := mul_le_mul hroot hpow (by positivity) (by decide)
    _ ≤ maxWord := by decide

theorem sqrtAt_of_neg {word : Word} (hi : encode i = word) (w : Width) (rd : Reg) (h : s.x rs1 < 0) :
    ∃ t, sqrtAt i w rd rs1 s = .next t ∧ FaultedBy word 2 s t := by
  rw [sqrtAt, if_pos h]
  exact ⟨_, rfl, faultedBy_of_encode_eq hi .sqrtNeg s⟩

theorem sqrtAt_of_nonneg (hl : s.cfg.legal = true) (i : Instr) (w : Width) (rd : Reg) (h : 0 ≤ s.x rs1) :
    ∃ t, sqrtAt i w rd rs1 s = .next t ∧
      ∃ r : Nat, IsRoot r (s.x rs1) ∧ WroteInt s rd (r * 2 ^ (frac s.cfg w / 2)) t := by
  have hmax : s.x rs1 ≤ maxWord := (s.x_fits rs1).2
  rw [sqrtAt, if_neg (not_lt.mpr h)]
  refine ⟨_, rfl, _, isRoot_isqrt h hmax, ?_⟩
  rw [← shl_eq]
  exact wroteInt_setResult s rd (rootValue_fits hl w h hmax)

/-- Settles O12: the digit-by-digit root is the integer root, and times 2^(F/2) it still fits a word. -/
theorem squareRoot : Obligations.SquareRoot := by
  intro s rd rs1 hl p hp
  fin_cases hp <;>
    exact ⟨decode_of_encR2 rfl rfl, sqrtAt_of_neg (encode_of_encR2 rfl) _ rd, sqrtAt_of_nonneg hl _ _ rd⟩

/-! Conversion of widths. -/

theorem cvtAt_wrote (w tw : Width) (rd rs1 : Reg) (m : Ovf) (s : State) : ∃ t, cvtAt w tw rd rs1 m s = .next t ∧
    (frac s.cfg w ≤ frac s.cfg tw → Applied s rd m (s.x rs1 * 2 ^ (frac s.cfg tw - frac s.cfg w)) t) ∧
    (frac s.cfg tw < frac s.cfg w → WroteInt s rd ((s.x rs1).fdiv (2 ^ (frac s.cfg w - frac s.cfg tw))) t) := by
  refine ⟨_, rfl, fun h => ?_, fun h => ?_⟩
  · rw [if_pos h, shl_eq]
    exact applied_setApply s rd m _
  · rw [if_neg (not_le.mpr h), ← asr_eq_fdiv]
    exact wroteInt_setResult s rd (asr_fits _ (s.x_fits rs1))

/-- Settles O13: a wider target applies the left shift, and a right shift of a word's value always fits. -/
theorem widthConversion : Obligations.WidthConversion := by
  intro s rd rs1 m p hp
  fin_cases hp <;> exact ⟨decode_of_encode_eq (encode_of_encCvt rfl) rfl, cvtAt_wrote _ _ rd rs1 m s⟩

end Sys2Proof.Machine
end

section
/-! PROOF. The tables (41_tables.md R151 to R161). A lookup interpolates two neighbouring ROM words, so it stays between
them, and it reads the fractional field of its operand alone; the commands' values follow from these two facts. -/

namespace Sys2Proof.Machine

open Sys2Proof

variable {c : Config} {s : State} {rd rs1 : Reg} {m : Ovf} {w : Width}

/-! Linear interpolation between two integers. -/

theorem emod_two_pow_bounds (n : Nat) (a : Int) : 0 ≤ a % 2 ^ n ∧ a % 2 ^ n < 2 ^ n :=
  fract_eq_emod n a ▸ fract_bounds n a

/-- With a fraction f / n in [0, 1) the floored interpolation stays between its two ends. -/
theorem lerp_bounds (lo hi : Int) {f n : Int} (hf : 0 ≤ f ∧ f < n) :
    min lo hi ≤ lo + ((hi - lo) * f).fdiv n ∧ lo + ((hi - lo) * f).fdiv n ≤ max lo hi := by
  obtain ⟨h0, h1⟩ := hf
  have hn : 0 < n := h0.trans_lt h1
  rw [fdiv_eq_ediv _ hn.le]
  obtain h | h := le_total lo hi
  · have hlo : 0 ≤ (hi - lo) * f / n := Int.ediv_nonneg (mul_nonneg (by omega) h0) hn.le
    have hhi : (hi - lo) * f / n ≤ hi - lo := Int.ediv_le_of_le_mul hn (by nlinarith)
    omega
  · have hlo : hi - lo ≤ (hi - lo) * f / n := (Int.le_ediv_iff_mul_le hn).mpr (by nlinarith)
    have hhi : (hi - lo) * f / n ≤ 0 := Int.ediv_le_of_le_mul hn (by nlinarith)
    omega

theorem lerp_fits (lo hi : Word) {f n : Int} (hf : 0 ≤ f ∧ f < n) :
    fits32 (sint lo + ((sint hi - sint lo) * f).fdiv n) := by
  obtain ⟨hmin, hmax⟩ := lerp_bounds (sint lo) (sint hi) hf
  obtain ⟨hlo, hlo'⟩ := sint_bounds lo
  obtain ⟨hhi, hhi'⟩ := sint_bounds hi
  exact ⟨(le_min hlo hhi).trans hmin, hmax.trans (max_le hlo' hhi')⟩

/-! The interpolation primitive (41_tables.md R151). -/

theorem nine_le_frac (hl : c.legal = true) (hw : w ∈ [Width.sample, .half]) : 9 ≤ frac c w := by
  obtain ⟨-, -, -, hS, hH, -⟩ := legal_frac hl
  fin_cases hw
  · exact hS
  · exact hH

/-- The index of a lookup, as `interpSample` computes it (`interpSample_eq`). -/
def interpIndex (c : Config) (w : Width) (x : Int) : BitVec 9 := BitVec.ofInt 9 (asr x (frac c w - 9))

theorem interpIndex_toNat (hF : 9 ≤ frac c w) (x : Int) :
    ((interpIndex c w x).toNat : Int) = x % 2 ^ frac c w / 2 ^ (frac c w - 9) := by
  obtain ⟨k, hk⟩ := Nat.exists_eq_add_of_le' hF
  rw [interpIndex, hk, Nat.add_sub_cancel, asr_eq, BitVec.toNat_ofInt, pow_add]
  have hx : x % (2 ^ k * 2 ^ 9) / 2 ^ k = x / 2 ^ k % 2 ^ 9 := by
    rw [Int.emod_def, Int.emod_def, mul_assoc, Int.sub_mul_ediv_left _ _ (by positivity),
      Int.ediv_ediv_of_nonneg (by positivity)]
  omega

theorem interpReduce_of_exact (h : c.interpProduct = .exactProduct) (z : Int) : interpReduce c z = z := by
  rw [interpReduce, h]

theorem interpReduce_of_wrap (h : c.interpProduct = .wrapProduct) (z : Int) : interpReduce c z = wrap32 z := by
  rw [interpReduce, h]

theorem interpReduce_zero (c : Config) : interpReduce c 0 = 0 := by
  cases h : c.interpProduct
  · exact interpReduce_of_exact h 0
  · exact interpReduce_of_wrap h 0

theorem interpSample_eq (c : Config) (tab : InterpTable) (w : Width) (x : Int) :
    interpSample c tab w x = interpReduce c (romLow c tab (interpIndex c w x) +
      (interpReduce c ((romHigh c tab (interpIndex c w x) - romLow c tab (interpIndex c w x)) *
        (x % 2 ^ (frac c w - 9)))).fdiv (2 ^ (frac c w - 9))) := by
  rw [← asr_eq_fdiv, ← fmod_pow2]; rfl

/-- A lookup reads the fractional field of its operand alone. -/
theorem interp_emod (hF : 9 ≤ frac c w) (tab : InterpTable) (x : Int) :
    interp c tab w (x % 2 ^ frac c w) = interp c tab w x := by
  have hi : interpIndex c w (x % 2 ^ frac c w) = interpIndex c w x :=
    BitVec.eq_of_toNat_eq (Int.natCast_inj.mp (by
      rw [interpIndex_toNat hF, interpIndex_toNat hF, Int.emod_emod]))
  have hf : x % 2 ^ frac c w % 2 ^ (frac c w - 9) = x % 2 ^ (frac c w - 9) :=
    Int.emod_emod_of_dvd x (pow_dvd_pow 2 (Nat.sub_le _ _))
  rw [interp, interp, interpSample_eq, interpSample_eq, hi, hf]

theorem interp_congr (hF : 9 ≤ frac c w) (tab : InterpTable) {x y : Int}
    (h : x % 2 ^ frac c w = y % 2 ^ frac c w) : interp c tab w x = interp c tab w y := by
  rw [← interp_emod hF, h, interp_emod hF]

/-- A lookup's value is a word's value: between two words with the exact product, wrapped with the other. -/
theorem interp_fits (c : Config) (tab : InterpTable) (w : Width) (x : Int) : fits32 (interp c tab w x) := by
  refine asr_fits _ ?_
  rw [interpSample_eq]
  cases hc : c.interpProduct
  · simp only [interpReduce_of_exact hc]
    exact lerp_fits _ _ (emod_two_pow_bounds _ x)
  · rw [interpReduce_of_wrap hc]
    exact wrap32_bounds _

/-- Settles O14: the index is below 512, so both words exist, and only the fractional field is read. -/
theorem interpolationPrimitive : Obligations.InterpolationPrimitive := by
  intro c tab x hl w hw
  have hF := nine_le_frac hl hw
  have hi := (interpIndex c w x).isLt
  refine ⟨⟨_, _, _, interpSample c tab w x, interpIndex_toNat hF x, by omega,
    Vector.getElem?_eq_getElem (by omega), Vector.getElem?_eq_getElem (by omega), asr_eq_fdiv _ _,
    fun hc => ?_, fun hc => ?_⟩, fun k => interp_congr hF tab (Int.add_mul_emod_self_right x k _)⟩
  · rw [interpSample_eq, interpReduce_of_exact hc, interpReduce_of_exact hc]
    exact ⟨rfl, lerp_bounds _ _ (emod_two_pow_bounds _ x)⟩
  · rw [interpSample_eq, interpReduce_of_wrap hc, interpReduce_of_wrap hc]
    exact ⟨_, reduced_applyVal .wrap _, reduced_applyVal .wrap _⟩

/-! TLI, SIN and COS (41_tables.md R152 to R154). -/

theorem tliAt_wrote (w : Width) (rd rs1 : Reg) (tab : InterpTable) (s : State) :
    ∃ t, tliAt w rd rs1 tab s = .next t ∧ WroteInt s rd (interp s.cfg tab w (s.x rs1)) t :=
  ⟨_, rfl, wroteInt_setResult s rd (interp_fits _ _ _ _)⟩

theorem sinAt_wrote (w : Width) (rd rs1 : Reg) (s : State) :
    ∃ t, sinAt w rd rs1 s = .next t ∧ WroteInt s rd (interp s.cfg .sin w (s.x rs1)) t :=
  tliAt_wrote w rd rs1 .sin s

/-- Wrapping to a word keeps the fractional field. -/
theorem wrap32_emod_two_pow {n : Nat} (hn : n ≤ 32) (z : Int) : wrap32 z % 2 ^ n = z % 2 ^ n := by
  have hd : (2 : Int) ^ n ∣ 4294967296 := (pow_dvd_pow 2 hn).trans (by decide)
  exact Int.ModEq.of_dvd hd (Int.emod_eq_emod_iff_emod_sub_eq_zero.mpr (wrap32_emod z))

theorem cosAt_wrote (hl : s.cfg.legal = true) (hw : w ∈ [Width.sample, .half]) (rd rs1 : Reg) :
    ∃ t, cosAt w rd rs1 s = .next t ∧
      WroteInt s rd (interp s.cfg .sin w (s.x rs1 + 2 ^ (frac s.cfg w - 2))) t := by
  have hF : frac s.cfg w ≤ 32 := (frac_le hl w).trans (by decide)
  rw [← interp_congr (nine_le_frac hl hw) .sin (wrap32_emod_two_pow hF _), ← pow2_eq]
  exact ⟨_, rfl, wroteInt_setResult s rd (interp_fits _ _ _ _)⟩

/-- Settles O15: every lookup fits a word, and wrapping COS's phase changes no lookup. -/
theorem tableLookupSineCosine : Obligations.TableLookupSineCosine := by
  intro s rd rs1 tab hl
  refine ⟨fun p hp => ?_, fun p hp => ?_, fun p hp => ?_⟩
  · fin_cases hp <;> refine ⟨?_, tliAt_wrote _ rd rs1 tab s⟩ <;> cases tab <;>
      exact decode_of_encode_eq rfl rfl
  · fin_cases hp <;> exact ⟨decode_of_encR2 rfl rfl, sinAt_wrote _ rd rs1 s⟩
  · fin_cases hp <;> exact ⟨decode_of_encR2 rfl rfl, cosAt_wrote hl (by decide) rd rs1⟩

/-! EXP2 and EXP10 (41_tables.md R155, R156). -/

theorem decode_of_encR2M {i : Instr} {op : BitVec 6} {wb : BitVec 2}
    (h : encodeFields i = encR2M op wb rd rs1 m) (hwf : i.wf = true) :
    decode (wordR op wb rd rs1 0 (modeBits m)) = .ok i :=
  decode_of_encode_eq (by rw [encode, h, modeBits_eq, wordR_eq]; rfl) hwf

theorem fdiv_mul_add (n : Int) {r d : Int} (h0 : 0 ≤ r) (h1 : r < d) : fdiv (n * d + r) d = n := by
  have hd : 0 < d := h0.trans_lt h1
  rw [fdiv, fdiv_eq_ediv _ hd.le, add_comm, Int.add_mul_ediv_right _ _ hd.ne', Int.ediv_eq_zero_of_lt h0 h1, zero_add]

theorem fmod_mul_add (n : Int) {r d : Int} (h0 : 0 ≤ r) (h1 : r < d) : fmod (n * d + r) d = r := by
  rw [fmod, fdiv_mul_add n h0 h1, mul_comm, add_sub_cancel_left]

theorem shiftedUnit_of_nonneg (F : Nat) {n : Int} (h : 0 ≤ n) : shiftedUnit F n = 2 ^ (F + n.toNat) := by
  rw [shiftedUnit, if_pos h, pow2_eq]

theorem shiftedUnit_of_neg (F : Nat) {n : Int} (h : n < 0) :
    shiftedUnit F n = (2 ^ F : Int).fdiv (2 ^ (-n).toNat) := by
  rw [shiftedUnit, if_neg (not_le.mpr h), fdiv, pow2_eq, pow2_eq]

theorem exp2Core_eq (c : Config) (w : Width) (n : Int) {r : Int} (h0 : 0 ≤ r) (h1 : r < 2 ^ frac c w) :
    exp2Core c w (n * 2 ^ frac c w + r) = shiftedUnit (frac c w) n +
      (shiftedUnit (frac c w) n * interp c .exp2 w r).fdiv (2 ^ frac c w) := by
  rw [exp2Core, pow2_eq, fdiv_mul_add n h0 h1, fmod_mul_add n h0 h1, fdiv]

/-- A command that applies EXP2CORE of y, with y split into its integer part n and its residual r. -/
theorem exec_exp2Core {i : Instr} {y : Int} (hx : exec i s = .next (s.setApply rd m (exp2Core s.cfg w y))) :
    ∃ (t : State) (n r su : Int), exec i s = .next t ∧
      y = n * 2 ^ frac s.cfg w + r ∧ 0 ≤ r ∧ r < 2 ^ frac s.cfg w ∧
      (0 ≤ n → su = 2 ^ (frac s.cfg w + n.toNat)) ∧
      (n < 0 → su = (2 ^ frac s.cfg w : Int).fdiv (2 ^ (-n).toNat)) ∧
      Applied s rd m (su + (su * interp s.cfg .exp2 w r).fdiv (2 ^ frac s.cfg w)) t := by
  have hy := (Int.ediv_mul_add_emod y (2 ^ frac s.cfg w)).symm
  obtain ⟨h0, h1⟩ := emod_two_pow_bounds (frac s.cfg w) y
  refine ⟨_, _, _, _, hx, hy, h0, h1, shiftedUnit_of_nonneg _, shiftedUnit_of_neg _, ?_⟩
  rw [← exp2Core_eq _ _ _ h0 h1, ← hy]
  exact applied_setApply s rd m _

theorem exp10At_eq (w : Width) (k : Word) (rd rs1 : Reg) (m : Ovf) (s : State) :
    exp10At w k rd rs1 m s =
      .next (s.setApply rd m (exp2Core s.cfg w ((s.x rs1 * sint k).fdiv (2 ^ frac s.cfg w)))) := by
  rw [exp10At, fdiv, pow2_eq]

theorem legal_exp2Rom_zero (hl : c.legal = true) : c.exp2Rom[0] = 0 := by
  simp only [Config.legal, Bool.and_eq_true, Config.tableLegal, decide_eq_true_iff] at hl
  obtain ⟨-, -, h, -⟩ := hl
  exact h

/-- The residual 0 reads EXP2_ROM[0], which a legal configuration has at 0 (10_state.md R33). -/
theorem interp_exp2_zero (hl : c.legal = true) (w : Width) : interp c .exp2 w 0 = 0 := by
  have hi : interpIndex c w 0 = 0 := by simp [interpIndex, asr_eq]
  have hlo : romLow c .exp2 0 = 0 := by
    show sint c.exp2Rom[0] = 0
    rw [legal_exp2Rom_zero hl]; rfl
  rw [interp, interpSample_eq, hi, hlo]
  simp [interpReduce_zero, asr_eq]

theorem exp2Core_of_integer (hl : c.legal = true) (w : Width) (n : Int) :
    exp2Core c w (n * 2 ^ frac c w) = shiftedUnit (frac c w) n := by
  rw [← add_zero (n * _), exp2Core_eq c w n le_rfl (by positivity), interp_exp2_zero hl, mul_zero, Int.zero_fdiv,
    add_zero]

/-- What `setApply` does with an integer that fits: OV is unchanged. -/
theorem wroteInt_setApply (s : State) (rd : Reg) (m : Ovf) {z : Int} (h : fits32 z) :
    WroteInt s rd z (s.setApply rd m z) := by
  have hov : s.raiseOv false = s := by simp [State.raiseOv]
  rw [State.setApply, overflows_of_fits m h, hov]
  exact wroteInt_setReg s rd ((sint_applyWord m z).trans (applyVal_of_fits m h))

theorem exp2At_integer (hl : s.cfg.legal = true) (w : Width) (rd : Reg) (m : Ovf) {n : Int}
    (hx : s.x rs1 = n * 2 ^ frac s.cfg w) :
    (0 ≤ n → n + frac s.cfg w ≤ 30 → ∃ t, exp2At w rd rs1 m s = .next t ∧
      WroteInt s rd (2 ^ (n.toNat + frac s.cfg w)) t) ∧
    (n + frac s.cfg w < 0 → ∃ t, exp2At w rd rs1 m s = .next t ∧ WroteInt s rd 0 t) := by
  rw [exp2At, hx, exp2Core_of_integer hl]
  refine ⟨fun h0 h30 => ?_, fun hneg => ?_⟩
  · rw [shiftedUnit_of_nonneg _ h0, add_comm (frac s.cfg w)]
    exact ⟨_, rfl, wroteInt_setApply s rd m
      ⟨le_trans (by decide) (by positivity : (0 : Int) ≤ _), two_pow_le_maxWord (by omega)⟩⟩
  · have hlt : (2 : Int) ^ frac s.cfg w < 2 ^ (-n).toNat := pow_lt_pow_right₀ (by decide) (by omega)
    rw [shiftedUnit_of_neg _ (by omega), fdiv_eq_ediv _ (by positivity), Int.ediv_eq_zero_of_lt (by positivity) hlt]
    exact ⟨_, rfl, wroteInt_setApply s rd m (by decide)⟩

/-- Settles O16: EXP2CORE is the shifted unit plus its product with the residual, and the residual of an integer is 0. -/
theorem exponentials : Obligations.Exponentials := by
  intro s rd rs1 m
  refine ⟨fun p hp => ?_, fun n hl p hp hx => ?_⟩
  · fin_cases hp
    · exact ⟨decode_of_encR2M rfl rfl, exec_exp2Core rfl⟩
    · exact ⟨decode_of_encR2M rfl rfl, exec_exp2Core rfl⟩
    · exact ⟨decode_of_encR2M rfl rfl, exec_exp2Core (exp10At_eq _ _ _ _ _ _)⟩
    · exact ⟨decode_of_encR2M rfl rfl, exec_exp2Core (exp10At_eq _ _ _ _ _ _)⟩
  · fin_cases hp <;> exact exp2At_integer hl _ rd m hx

/-! SQ135 and SQ35 (41_tables.md R157, R158). -/

theorem upperHarmonics_eq {s3 s5 x : Int}
    (h3 : ∃ v, Reduced .wrap (3 * x) v ∧ s3 = interp c .sin w v)
    (h5 : ∃ v, Reduced .wrap (5 * x) v ∧ s5 = interp c .sin w v) :
    upperHarmonics c w x = s3.tdiv 3 + s5.tdiv 5 := by
  obtain ⟨_, hv3, rfl⟩ := h3
  obtain ⟨_, hv5, rfl⟩ := h5
  rw [reduced_iff.mp hv3, reduced_iff.mp hv5]; rfl

/-- A third and a fifth of two words' values sum to a word's value. -/
theorem upperHarmonics_fits (c : Config) (w : Width) (x : Int) : fits32 (upperHarmonics c w x) := by
  have hfit3 : fits32 (harmonic c w 3 x) := interp_fits c .sin w _
  have hfit5 : fits32 (harmonic c w 5 x) := interp_fits c .sin w _
  have h3 : (tdiv (harmonic c w 3 x) 3).natAbs = (harmonic c w 3 x).natAbs / 3 := Int.natAbs_tdiv _ _
  have h5 : (tdiv (harmonic c w 5 x) 5).natAbs = (harmonic c w 5 x).natAbs / 5 := Int.natAbs_tdiv _ _
  simp only [fits32, minWord, maxWord, upperHarmonics] at *
  omega

/-- What `setResult` does with any integer (log 9). -/
theorem wrote_setResult (s : State) (rd : Reg) (z : Int) :
    Wrote s rd ((s.setResult rd z).reg rd) (s.setResult rd z) := by
  rw [State.setResult, State.reg_setReg_same]
  exact wrote_setReg s rd _

theorem sq135At_wrote (w : Width) (rd rs1 : Reg) (s : State) : ∃ t, sq135At w rd rs1 s = .next t ∧
    Wrote s rd (t.reg rd) t ∧
    (fits32 (interp s.cfg .sin w (s.x rs1) + upperHarmonics s.cfg w (s.x rs1)) →
      t.x rd = interp s.cfg .sin w (s.x rs1) + upperHarmonics s.cfg w (s.x rs1)) :=
  ⟨_, rfl, wrote_setResult s rd _, fun h => have ⟨_, hx, _⟩ := wroteInt_setResult s rd h; hx⟩

theorem sq35At_wrote (w : Width) (rd rs1 : Reg) (s : State) :
    ∃ t, sq35At w rd rs1 s = .next t ∧ WroteInt s rd (upperHarmonics s.cfg w (s.x rs1)) t :=
  ⟨_, rfl, wroteInt_setResult s rd (upperHarmonics_fits _ w _)⟩

/-- Settles O17: the two upper harmonics always fit a word; with sin(x) added the sum is kept where it fits. -/
theorem oddHarmonics : Obligations.OddHarmonics := by
  intro s rd rs1 _ w _ s3 s5 h3 h5
  simp only [add_assoc, ← upperHarmonics_eq h3 h5]
  refine ⟨fun p hp hw => ?_, fun p hp hw => ?_⟩ <;> subst hw
  · obtain ⟨t, hx, hw, hfit⟩ := sq135At_wrote p.1 rd rs1 s
    fin_cases hp <;> exact ⟨decode_of_encR2 rfl rfl, t, hx, hw, fun hlo hhi => hfit ⟨hlo, hhi⟩⟩
  · fin_cases hp <;> exact ⟨decode_of_encR2 rfl rfl, sq35At_wrote _ rd rs1 s⟩

/-! ROM words by index (41_tables.md R161). -/

/-- The words of a ROM; `romAt` reads them (`romAt_of_nonneg`, `romAt_eq_none`). -/
def romWords (c : Config) : RomTable → List Word
  | .sin => c.sinRom.toList
  | .exp2 => c.exp2Rom.toList
  | .note => c.noteRom.toList

theorem romAt_of_nonneg (c : Config) (t : RomTable) {i : Int} (h : 0 ≤ i) :
    romAt c t i = (romWords c t)[i.toNat]? := by
  cases t <;> simp [romAt, romWords, not_lt.mpr h]

theorem romAt_eq_none (c : Config) (t : RomTable) {i : Int} (h : i < 0 ∨ (romWords c t).length ≤ i) :
    romAt c t i = none := by
  obtain h | h := h
  · exact if_pos h
  · rw [romAt_of_nonneg c t (by omega), List.getElem?_eq_none (by omega)]

theorem romrdAt_cases {word : Word} {i : Instr} (hi : encode i = word) (t : RomTable) (rd rs1 : Reg) (s : State) :
    (s.x rs1 < 0 ∨ (romWords s.cfg t).length ≤ s.x rs1 →
      ∃ u, romrdAt i t rd rs1 s = .next u ∧ FaultedBy word 8 s u) ∧
    (0 ≤ s.x rs1 → s.x rs1 < (romWords s.cfg t).length →
      ∃ u v, romrdAt i t rd rs1 s = .next u ∧ (romWords s.cfg t)[(s.x rs1).toNat]? = some v ∧
        Wrote s rd v u) := by
  refine ⟨fun h => ?_, fun h0 h1 => ?_⟩
  · rw [romrdAt, romAt_eq_none s.cfg t h]
    exact ⟨_, rfl, faultedBy_of_encode_eq hi .romIndex s⟩
  · have hv := List.getElem?_eq_getElem (l := romWords s.cfg t) (i := (s.x rs1).toNat) (by omega)
    rw [romrdAt, romAt_of_nonneg s.cfg t h0, hv]
    exact ⟨_, _, rfl, rfl, wrote_setReg s rd _⟩

/-- Settles O19: `romAt` has a word exactly for the indices of its table. -/
theorem romRead : Obligations.RomRead := by
  intro s rd rs1 p hp
  fin_cases hp
  · exact ⟨decode_of_encode_eq rfl rfl, romrdAt_cases rfl .sin rd rs1 s⟩
  · exact ⟨decode_of_encode_eq rfl rfl, romrdAt_cases rfl .exp2 rd rs1 s⟩
  · exact ⟨decode_of_encode_eq rfl rfl, romrdAt_cases rfl .note rd rs1 s⟩

/-! NTOF (41_tables.md R159). -/

theorem romAt_note (c : Config) {i : Int} (h0 : 0 ≤ i) (h1 : i ≤ 127) :
    ∃ v, c.noteRom[i.toNat]? = some v ∧ romAt c .note i = some v :=
  have hv := Vector.getElem?_eq_getElem (xs := c.noteRom) (i := i.toNat) (by omega)
  ⟨_, hv, by rw [romAt_of_nonneg c .note h0, romWords, Vector.getElem?_toList, hv]⟩

theorem romAt_note_eq_none (c : Config) {i : Int} (h : i < 0 ∨ 127 < i) : romAt c .note i = none :=
  romAt_eq_none c .note (by simp only [romWords, Vector.length_toList]; omega)

section Note

variable {i fr : Int} (h0 : 0 ≤ fr) (h1 : fr < 2 ^ c.fH)

include h0 h1

theorem noteFreq_eq_none (h : i < 0 ∨ 127 < i ∨ i = 127 ∧ fr ≠ 0) : noteFreq c (i * 2 ^ c.fH + fr) = none := by
  obtain h | ⟨rfl, hfr⟩ := or_assoc.mpr h
  · simp only [noteFreq, pow2_eq, fdiv_mul_add i h0 h1, romAt_note_eq_none c h]
  · obtain ⟨lo, -, hlo⟩ := romAt_note c (i := 127) (by decide) le_rfl
    have hhi := romAt_note_eq_none c (i := 127 + 1) (.inr (by decide))
    simp only [noteFreq, pow2_eq, fdiv_mul_add _ h0 h1, fmod_mul_add _ h0 h1, hlo, hhi, if_neg hfr]

theorem noteFreq_between {lo hi : Word} (hfr : fr ≠ 0) (hlo : romAt c .note i = some lo)
    (hhi : romAt c .note (i + 1) = some hi) :
    noteFreq c (i * 2 ^ c.fH + fr) = some (sint lo + fdiv ((sint hi - sint lo) * fr) (2 ^ c.fH)) := by
  simp only [noteFreq, pow2_eq, fdiv_mul_add i h0 h1, fmod_mul_add i h0 h1, hlo, hhi, if_neg hfr]

end Note

theorem noteFreq_integer {i : Int} {lo : Word} (hlo : romAt c .note i = some lo) :
    noteFreq c (i * 2 ^ c.fH + 0) = some (sint lo) := by
  have hp : (0 : Int) < 2 ^ c.fH := by positivity
  cases hhi : romAt c .note (i + 1) <;>
    simp only [noteFreq, pow2_eq, fdiv_mul_add i le_rfl hp, fmod_mul_add i le_rfl hp, hlo, hhi, if_true]

theorem exec_ntof_of_none (rd : Reg) (h : noteFreq s.cfg (s.x rs1) = none) :
    ∃ t, exec (.ntof rd rs1) s = .next t ∧ FaultedBy (wordR 0x1B 0 rd rs1 0 0) 4 s t := by
  refine ⟨_, rfl, ?_⟩
  rw [h]
  exact faultedBy_of_encode_eq (encode_of_encR2 rfl) .noteRange s

theorem exec_ntof_of_some (rd : Reg) {z : Int} (h : noteFreq s.cfg (s.x rs1) = some z) :
    exec (.ntof rd rs1) s = .next (s.setResult rd z) := by
  show execNtof rd rs1 s = _
  rw [execNtof, h]

theorem setResult_sint (s : State) (rd : Reg) (v : Word) : s.setResult rd (sint v) = s.setReg rd v := by
  rw [State.setResult, result32, if_pos (sint_bounds v), toWord_sint]

/-! FTON (41_tables.md R160). -/

theorem ilog2_bounds {q : Int} (h : 0 < q) : 2 ^ ilog2 q.toNat ≤ q ∧ q < 2 ^ (ilog2 q.toNat + 1) := by
  have hq : (q.toNat : Int) = q := Int.toNat_of_nonneg h.le
  constructor
  · exact_mod_cast hq ▸ Nat.cast_le.mpr (Nat.log2_self_le (n := q.toNat) (by omega))
  · exact_mod_cast hq ▸ Nat.cast_lt.mpr (Nat.lt_log2_self (n := q.toNat))

theorem octaveNote_fits (hl : c.legal = true) {q : Int} (h0 : 0 < q) (h1 : q < 2 ^ 23) : fits32 (octaveNote c q) := by
  obtain ⟨-, -, -, -, h9, h16, -⟩ := legal_frac hl
  have hk : ilog2 q.toNat < 23 :=
    (pow_lt_pow_iff_right₀ (by decide : (1 : Int) < 2)).mp ((ilog2_bounds h0).1.trans_lt h1)
  have hp : (2 : Int) ^ c.fH ≤ 2 ^ 16 := pow_le_pow_right₀ (by decide) h16
  have hp0 : (0 : Int) < 2 ^ c.fH := by positivity
  rw [octaveNote, shl_eq]
  simp only [fits32, minWord, maxWord]
  constructor <;> nlinarith

theorem exec_fton_of_nonpos (rd : Reg) (h : (s.x rs1).fdiv 440 ≤ 0) :
    ∃ t, exec (.fton rd rs1) s = .next t ∧ FaultedBy (wordR 0x1C 0 rd rs1 0 0) 5 s t := by
  refine ⟨_, rfl, ?_⟩
  rw [fdiv, if_pos h]
  exact faultedBy_of_encode_eq (encode_of_encR2 rfl) .freqRange s

theorem exec_fton_of_pos (hl : s.cfg.legal = true) (rd : Reg) (h : 0 < (s.x rs1).fdiv 440) :
    ∃ t, exec (.fton rd rs1) s = .next t ∧ WroteInt s rd (octaveNote s.cfg ((s.x rs1).fdiv 440)) t := by
  have hq : (s.x rs1).fdiv 440 < 2 ^ 23 := by
    have hmax : s.x rs1 ≤ 2147483647 := (s.x_fits rs1).2
    rw [fdiv_eq_ediv _ (by decide)]
    omega
  refine ⟨_, rfl, ?_⟩
  rw [fdiv, if_neg (not_le.mpr h)]
  exact wroteInt_setResult s rd (octaveNote_fits hl h hq)

/-- Settles O18: NTOF has a ROM word for the integer notes 0 to 127 and a second one below 127, and between two words it
stays a word's value; FTON's ratio is below 2^23, so its note fits. -/
theorem noteAndFrequency : Obligations.NoteAndFrequency := by
  intro s rd rs1
  refine ⟨decode_of_encR2 rfl rfl, decode_of_encR2 rfl rfl,
    fun i fr hx h0 h1 => ⟨fun h => ?_, fun hi hi' hfr => ?_, fun hi hi' hfr => ?_⟩,
    exec_fton_of_nonpos rd, fun hl h => ?_⟩
  · exact exec_ntof_of_none rd (hx ▸ noteFreq_eq_none h0 h1 h)
  · subst hfr
    obtain ⟨lo, hrom, hlo⟩ := romAt_note s.cfg hi hi'
    exact ⟨_, lo, exec_ntof_of_some rd (hx ▸ noteFreq_integer hlo), hrom,
      setResult_sint s rd lo ▸ wrote_setReg s rd lo⟩
  · obtain ⟨lo, hromLo, hlo⟩ := romAt_note s.cfg hi hi'.le
    obtain ⟨hi₁, hromHi, hhi⟩ := romAt_note s.cfg (i := i + 1) (by omega) (by omega)
    rw [Int.toNat_add hi (by decide)] at hromHi
    exact ⟨_, lo, hi₁, exec_ntof_of_some rd (hx ▸ noteFreq_between h0 h1 hfr hlo hhi), hromLo, hromHi,
      wroteInt_setResult s rd (lerp_fits lo hi₁ ⟨h0, h1⟩)⟩
  · obtain ⟨t, hx, hw⟩ := exec_fton_of_pos hl rd h
    obtain ⟨hlo, hhi⟩ := ilog2_bounds h
    exact ⟨t, _, hx, hlo, hhi, shl_eq _ _ ▸ hw⟩

end Sys2Proof.Machine
end

section
/-! PROOF. The pseudo-random generator (42_rng.md R180 to R185): its three commands, the seed after any number of draws,
the inverse of the seed update, and the commands that leave the seed alone. -/

namespace Sys2Proof.Machine

open Sys2Proof

/-! The seed update, as an integer and as a word. -/

theorem sint_nextSeed (w : Word) : sint (nextSeed w) = wrap32 (sint w * lcgMult) :=
  sint_toWord_of_fits (wrap32_bounds _)

theorem nextSeed_eq_mul (w : Word) : nextSeed w = w * 0x015A4E35#32 := by
  apply BitVec.eq_of_toInt_eq
  rw [BitVec.toInt_mul]
  exact sint_nextSeed w

theorem uint_nextSeed (w : Word) : uint (nextSeed w) = uint w * 0x015A4E35 % 2 ^ 32 := by
  rw [nextSeed_eq_mul, uint, BitVec.toNat_mul, BitVec.toNat_ofNat]

theorem reduced_nextSeed (w : Word) : Reduced .wrap (sint w * lcgMult) (sint (nextSeed w)) :=
  sint_nextSeed w ▸ reduced_applyVal .wrap _

/-- A wrapped factor may as well be exact: what is wrapped after a draw is wrapped once in all. -/
theorem Reduced.of_nextSeed_mul {w : Word} {z v : Int} (h : Reduced .wrap (sint (nextSeed w) * z) v) :
    Reduced .wrap (sint w * (lcgMult * z)) v := by
  rw [reduced_iff] at h ⊢
  rw [h, sint_nextSeed, ← mul_assoc]
  exact Int.bmod_mul_bmod

/-! RAND, RSEED and RGET (R180 to R182). -/

/-- The state after RAND: the new seed, and its output in rd. -/
def State.drawn (s : State) (rd : Reg) : State :=
  { s with seed := nextSeed s.seed }.setReg rd (rngExtract s.cfg (nextSeed s.seed))

theorem exec_rand (rd : Reg) (s : State) : exec (.rand rd) s = .next (s.drawn rd) := rfl

theorem State.drawn_wrote (s : State) (rd : Reg) :
    Wrote { s with seed := (s.drawn rd).seed } rd (rngExtract s.cfg (s.drawn rd).seed) (s.drawn rd) :=
  wrote_setReg _ rd _

theorem State.drawn_reg (s : State) (rd : Reg) : (s.drawn rd).reg rd = rngExtract s.cfg (s.drawn rd).seed :=
  State.reg_setReg_same _ rd _

/-- Settles O23: RAND's result comes from the updated seed, and the other two copy a word. -/
theorem generatorCommands : Obligations.GeneratorCommands := fun s rd _ =>
  ⟨⟨decode_of_encR2 rfl rfl, _, exec_rand rd s, reduced_nextSeed s.seed, s.drawn_wrote rd⟩,
    ⟨decode_of_encR2 rfl rfl, rfl⟩,
    ⟨decode_of_encR2 rfl rfl, _, rfl, wrote_setReg s rd s.seed⟩⟩

/-! Any number of draws (R184). -/

/-- Settles O24, by induction on the draws: the first one contributes one factor, and the last one's register is
written by no later draw. -/
theorem seedAfterDraws : Obligations.SeedAfterDraws := by
  intro rds
  induction rds with
  | nil =>
    intro s
    refine ⟨s, rfl, ?_, nofun⟩
    rw [List.length_nil, pow_zero, mul_one, reduced_iff]
    exact (wrap32_sint s.seed).symm
  | cons rd rds ih =>
    intro s
    obtain ⟨t, hrun, hseed, hlast⟩ := ih (s.drawn rd)
    refine ⟨t, ⟨_, exec_rand rd s, hrun⟩, ?_, fun r hr => ?_⟩
    · rw [List.length_cons, pow_succ']
      exact Reduced.of_nextSeed_mul hseed
    · cases rds with
      | nil =>
        obtain rfl : t = s.drawn rd := hrun
        cases hr
        exact s.drawn_reg rd
      | cons => exact hlast r hr

/-! The seed update has an inverse (R185): the multiplier is odd. -/

/-- The inverse of the multiplier modulo 2^32. -/
abbrev lcgInverse : Word := 0x2925141D#32

theorem nextSeed_mul_lcgInverse (w : Word) : nextSeed w * lcgInverse = w := by
  rw [nextSeed_eq_mul, BitVec.mul_assoc, show 0x015A4E35#32 * lcgInverse = 1#32 by decide, BitVec.mul_one]

theorem nextSeed_of_mul_lcgInverse (w : Word) : nextSeed (w * lcgInverse) = w := by
  rw [nextSeed_eq_mul, BitVec.mul_assoc, show lcgInverse * 0x015A4E35#32 = 1#32 by decide, BitVec.mul_one]

theorem nextSeed_injective : Function.Injective nextSeed :=
  Function.LeftInverse.injective (g := (· * lcgInverse)) nextSeed_mul_lcgInverse

theorem nextSeed_surjective : Function.Surjective nextSeed := fun w => ⟨_, nextSeed_of_mul_lcgInverse w⟩

theorem two_pow_dvd_nextSeed (w : Word) {k : Nat} (hk : k ≤ 32) : 2 ^ k ∣ uint (nextSeed w) ↔ 2 ^ k ∣ uint w := by
  have hodd : Nat.Coprime (2 ^ k) 0x015A4E35 := Nat.Coprime.pow_left k (by decide)
  calc 2 ^ k ∣ uint (nextSeed w)
      ↔ 2 ^ k ∣ uint w * 0x015A4E35 % 2 ^ 32 := by rw [uint_nextSeed]
    _ ↔ 2 ^ k ∣ uint w * 0x015A4E35 := Nat.dvd_mod_iff (pow_dvd_pow 2 hk)
    _ ↔ 2 ^ k ∣ uint w := hodd.dvd_mul_right

/-- Settles O25: the multiplier has an inverse modulo 2^32, and an odd factor adds no trailing zero bit. -/
theorem seedUpdateIsBijective : Obligations.SeedUpdateIsBijective :=
  ⟨fun _ _ h => nextSeed_injective h, nextSeed_surjective, fun w _ hk => (two_pow_dvd_nextSeed w hk).symm⟩

/-! The seed under the other commands (R183; 10_state.md R27). -/

theorem Effect.seed_eq {i : Instr} {s t : State} (h : Effect i s t) (hrand : ∀ rd, i ≠ .rand rd)
    (hrseed : ∀ rs1, i ≠ .rseed rs1) (hsts : ∀ rd rs1 imm, i ≠ .sts rd rs1 imm) : t.seed = s.seed := by
  cases h with
  | rand rd _ _ hi => exact absurd hi (hrand rd)
  | rseed rs1 hi => exact absurd hi (hrseed rs1)
  | sts rd rs1 imm hi => exact absurd hi (hsts rd rs1 imm)
  | run _ _ _ _ _ _ _ u hu => rw [hu.rest]; rfl
  | _ => rfl

/-- Settles O26: of the effects that a command can have, only those of RAND, RSEED and STS write the seed. -/
theorem onlyRandRseedStsWriteSeed : Obligations.OnlyRandRseedStsWriteSeed :=
  fun _ _ _ h => (Effect.of_exec h).seed_eq

end Sys2Proof.Machine
end

section
/-! PROOF. The unit conversions of CONV (43_conversions.md R190 to R200). Each formula of the model is rewritten once
into the integers of its rule; a command then applies or writes that integer, or faults where its rule says so. -/

namespace Sys2Proof.Machine

open Sys2Proof

variable {i : Instr} {s u : State} {rd rs1 : Reg} {m : Ovf} {fn : BitVec 4}

/-! Words of CONV, as claims write them (30_encoding.md R85). -/

theorem encode_of_encConv (h : encodeFields i = encConv rd rs1 m fn) :
    encode i = wordI 0x1E 0 rd rs1 (0#10 ++ modeBits m ++ fn) := by
  rw [encode, h, modeBits_eq]; rfl

theorem decode_of_encConv (h : encodeFields i = encConv rd rs1 m fn) (hwf : i.wf = true) :
    decode (wordI 0x1E 0 rd rs1 (0#10 ++ modeBits m ++ fn)) = .ok i :=
  decode_of_encode_eq (encode_of_encConv h) hwf

/-! The shapes of CONV's commands: one that applies an integer, and one with a check that faults. -/

theorem exec_applied {z z' : Int} (hx : exec i s = .next (s.setApply rd m z)) (hz : z = z') :
    ∃ t, exec i s = .next t ∧ Applied s rd m z' t :=
  ⟨_, hx, hz ▸ applied_setApply s rd m z⟩

section Check

variable {p : Prop} [Decidable p] {c : Cause} (hx : exec i s = .next (if p then faultOf i c s else u))

include hx

theorem exec_faulted_of_check {word : Word} (hi : encode i = word) (h : p) :
    ∃ t, exec i s = .next t ∧ FaultedBy word (causeCode c) s t := by
  rw [hx, if_pos h]
  exact ⟨_, rfl, faultedBy_of_encode_eq hi c s⟩

theorem exec_of_check_passed (h : ¬p) : exec i s = .next u := by
  rw [hx, if_neg h]

end Check

/-! Decibels (R191, R192). -/

/-- Settles O20: DB2G's and G2DB's integers are the rules' own, and G2DB checks its operand first. -/
theorem decibelConversions : Obligations.DecibelConversions := fun s rd rs1 m =>
  ⟨⟨decode_of_encConv rfl rfl, exec_applied rfl (congrArg _ (shl_eq ((s.x rs1).tdiv 6) _))⟩,
    decode_of_encConv rfl rfl, exec_faulted_of_check (c := .logDomain) rfl (encode_of_encConv rfl),
    fun h => exec_applied (exec_of_check_passed (i := .g2db rd rs1 m) rfl (not_le.mpr h)) rfl⟩

/-! Products and units of the formulas. -/

theorem fixmul_eq (F : Nat) (a b : Int) : fixmul F a b = (a * b).fdiv (2 ^ F) := asr_eq_fdiv _ _

theorem one_half_eq (c : Config) : one c .half = 2 ^ c.fH := pow2_eq _

/-! Roots (R193, R196). -/

theorem envSample_eq (c : Config) (a : Int) :
    envSample c a = ((a - 2 ^ c.fH) * sint c.k0002H).fdiv (2 ^ c.fH) * 2 ^ (c.fS - c.fH) := by
  rw [envSample, shl_eq, fixmul_eq, one_half_eq, sampleHalf]

theorem rootValue_sample_eq (c : Config) (a : Int) :
    rootValue c .sample a = (isqrt a.toNat : Int) * 2 ^ (c.fS / 2) := shl_eq _ _

/-- EV2S past its check: the root is written, and OV says whether M kept the Sample value. -/
theorem exec_ev2s_of_nonneg (hl : s.cfg.legal = true) (rd : Reg)
    (h : 0 ≤ applyVal m (envSample s.cfg (s.x rs1))) :
    ∃ (t : State) (r : Nat), exec (.ev2s rd rs1 m) s = .next t ∧
      IsRoot r (applyVal m (envSample s.cfg (s.x rs1))) ∧
      WroteInt { s with ov := t.ov } rd (r * 2 ^ (s.cfg.fS / 2)) t ∧
      (t.ov = true ↔ s.ov = true ∨ applyVal m (envSample s.cfg (s.x rs1)) ≠ envSample s.cfg (s.x rs1)) := by
  obtain ⟨-, hmax⟩ := applyVal_fits m (envSample s.cfg (s.x rs1))
  have hx := exec_of_check_passed (i := .ev2s rd rs1 m) (s := s) rfl (not_lt.mpr h)
  refine ⟨_, _, hx, isRoot_isqrt h hmax, ?_, ?_⟩
  · rw [← rootValue_sample_eq]
    exact wroteInt_setResult (s.raiseOv _) rd (rootValue_fits hl .sample h hmax)
  · simp [State.setResult, overflows]

theorem exec_s2vol_of_nonneg (hl : s.cfg.legal = true) (rd : Reg) (m : Ovf) (h : 0 ≤ s.x rs1) :
    ∃ (t : State) (r : Nat), exec (.s2vol rd rs1 m) s = .next t ∧ IsRoot r (s.x rs1) ∧
      WroteInt s rd (((r : Int) * 2 ^ (s.cfg.fS / 2)).fdiv 4) t := by
  have hmax : s.x rs1 ≤ maxWord := (s.x_fits rs1).2
  have hx := exec_of_check_passed (i := .s2vol rd rs1 m) (s := s) rfl (not_lt.mpr h)
  refine ⟨_, _, hx, isRoot_isqrt h hmax, ?_⟩
  rw [← rootValue_sample_eq, show (4 : Int) = 2 ^ 2 from rfl, ← asr_eq_fdiv]
  exact wroteInt_setResult s rd (asr_fits 2 (rootValue_fits hl .sample h hmax))

/-- Settles O21: the value under the root is the reduced one, which fits a word, so its root does; the fault starts from
the state before OV was raised. -/
theorem rootConversions : Obligations.RootConversions := by
  intro s rd rs1 m hl
  refine ⟨⟨decode_of_encConv rfl rfl, fun z ts hz hts => ?_⟩, decode_of_encConv rfl rfl,
    exec_faulted_of_check (c := .sqrtNeg) rfl (encode_of_encConv rfl), exec_s2vol_of_nonneg hl rd m⟩
  rw [← envSample_eq] at hz
  obtain rfl := hz
  obtain rfl := reduced_iff.mp hts
  exact ⟨exec_faulted_of_check (c := .sqrtNeg) rfl (encode_of_encConv rfl), exec_ev2s_of_nonneg hl rd⟩

/-! Curves (R194, R195, R197 to R200). -/

/-- P2B's two values fit a word. -/
theorem exec_p2b (s : State) (rd rs1 : Reg) (m : Ovf) : ∃ t, exec (.p2b rd rs1 m) s = .next t ∧
    WroteInt s rd (if 2 ^ (s.cfg.fS - 1) ≤ s.x rs1 then 1 else 0) t := by
  rw [← pow2_eq]
  refine ⟨_, rfl, wroteInt_setResult s rd ?_⟩
  split <;> decide

theorem qCurve_of_lt {c : Config} {p : Int} (h : p < 2 ^ (c.fS - 1)) :
    qCurve c p = sint c.qc0 + (p * sint c.qs1).fdiv (2 ^ c.fS) := by
  rw [← pow2_eq] at h
  rw [qCurve, if_pos h, fixmul_eq]

theorem qCurve_of_le {c : Config} {p : Int} (h : 2 ^ (c.fS - 1) ≤ p) :
    qCurve c p = sint c.qc0 + (2 ^ (c.fS - 1) * sint c.qs1).fdiv (2 ^ c.fS) +
      ((p - 2 ^ (c.fS - 1)) * sint c.qs2).fdiv (2 ^ c.fS) := by
  rw [← pow2_eq] at h
  rw [qCurve, if_neg (not_lt.mpr h), fixmul_eq, fixmul_eq, pow2_eq]

theorem exec_p2q (s : State) (rd rs1 : Reg) (m : Ovf) : ∃ t, exec (.p2q rd rs1 m) s = .next t ∧
    (s.x rs1 < 2 ^ (s.cfg.fS - 1) →
      Applied s rd m (sint s.cfg.qc0 + (s.x rs1 * sint s.cfg.qs1).fdiv (2 ^ s.cfg.fS)) t) ∧
    (2 ^ (s.cfg.fS - 1) ≤ s.x rs1 →
      Applied s rd m (sint s.cfg.qc0 + (2 ^ (s.cfg.fS - 1) * sint s.cfg.qs1).fdiv (2 ^ s.cfg.fS) +
        ((s.x rs1 - 2 ^ (s.cfg.fS - 1)) * sint s.cfg.qs2).fdiv (2 ^ s.cfg.fS)) t) := by
  have happ := applied_setApply s rd m (qCurve s.cfg (s.x rs1))
  exact ⟨_, rfl, fun h => qCurve_of_lt h ▸ happ, fun h => qCurve_of_le h ▸ happ⟩

/-- Settles O22: the fixed-point products and shifts of each curve are floor divisions by powers of two. -/
theorem curveConversions : Obligations.CurveConversions := by
  rintro s rd rs1 m _ _ _ _ _ - rfl rfl rfl rfl rfl
  refine ⟨⟨decode_of_encConv rfl rfl, exec_applied rfl ?s2ev⟩,
    ⟨decode_of_encConv rfl rfl, exec_applied rfl ?vol2s⟩, ⟨decode_of_encConv rfl rfl, exec_p2b s rd rs1 m⟩,
    ⟨decode_of_encConv rfl rfl, exec_applied rfl ?p2f⟩, ⟨decode_of_encConv rfl rfl, exec_p2q s rd rs1 m⟩,
    decode_of_encConv rfl rfl, exec_applied rfl ?p2st⟩
  case s2ev => rw [fixmul_eq, asr_eq_fdiv, one_half_eq, sampleHalf]
  case vol2s => exact fixmul_eq _ _ _
  case p2f => rw [asr_eq_fdiv, fixmul_eq, one_half_eq, sampleHalf]
  case p2st => rw [asr_eq_fdiv, fixmul_eq, fixmul_eq]

end Sys2Proof.Machine
end

section
/-! PROOF. The envelope generator (44_envelope.md R210 to R217): the value of each stage, the restart and the release of
an envelope, its advance in both modes, and the commands that leave every envelope alone. -/

namespace Sys2Proof.Machine

open Sys2Proof

variable {i : Instr} {s t : State} {c : Config} {e : Envelope} {k : Fin 8}

/-! Words of format V, as claims write them (30_encoding.md R81). -/

theorem decode_of_encV {op : BitVec 6} {vi : VoiceIdx} (h : encodeFields i = encV op 0 vi) (hwf : i.wf = true) :
    decode (wordV op 0 0 vi) = .ok i :=
  decode_of_encode_eq (by rw [encode, h, wordV_eq]; rfl) hwf

theorem decode_of_encVRd {op : BitVec 6} {rd : Reg} {vi : VoiceIdx} (h : encodeFields i = encVRd op 0 rd vi)
    (hwf : i.wf = true) : decode (wordV op rd 0 vi) = .ok i :=
  decode_of_encode_eq (by rw [encode, h, wordV_eq]; rfl) hwf

/-! The value of a stage (R211), in the integers of the rule. -/

theorem one_sample_eq (c : Config) : one c .sample = 2 ^ c.fS := pow2_eq _

theorem envExact_attack (h : e.stage = .attack) :
    envExact c e = (sint e.position * sint e.attackRate).fdiv (2 ^ c.fS) := by
  simp only [envExact, h, fixmul_eq]

theorem envExact_decay (h : e.stage = .decay) {g g2 : Int}
    (hg : g = 2 ^ c.fS - (sint e.position * sint e.decayRate).fdiv (2 ^ c.fS)) (hg2 : g2 = (g * g).fdiv (2 ^ c.fS)) :
    envExact c e = g2 + (sint e.sustain * (2 ^ c.fS - g2)).fdiv (2 ^ c.fS) := by
  subst hg2 hg
  simp only [envExact, h, fixmul_eq, one_sample_eq]

theorem envExact_sustain (h : e.stage = .sustain) : envExact c e = sint e.sustain := by
  simp only [envExact, h]

theorem envExact_release (h : e.stage = .release) {g : Int}
    (hg : g = 2 ^ c.fS - (sint e.position * sint e.releaseRate).fdiv (2 ^ c.fS)) :
    envExact c e = (sint e.releaseValue * (g * g).fdiv (2 ^ c.fS)).fdiv (2 ^ c.fS) := by
  subst hg
  simp only [envExact, h, fixmul_eq, one_sample_eq]

theorem envExact_finished (h : e.stage = .finished) : envExact c e = 0 := by
  simp only [envExact, h]

/-- EVAL applies the exact value of its envelope, saturating (R215). -/
theorem exec_eval (rd : Reg) (vi : VoiceIdx) (s : State) :
    exec (.eval rd vi) s = .next (s.setApply rd .sat (envExact s.cfg (s.env (slotOf vi)))) := rfl

theorem applied_setApply_of_eq {z z' : Int} (h : z' = z) (s : State) (rd : Reg) (m : Ovf) :
    Applied s rd m z (s.setApply rd m z') :=
  h ▸ applied_setApply s rd m z'

/-- Settles O27: EVAL applies one integer, which is in each stage the formula of the rule. -/
theorem envelopeValueByStage : Obligations.EnvelopeValueByStage := by
  rintro s rd vi _ _ _ _ rfl rfl rfl rfl
  exact ⟨decode_of_encVRd rfl rfl, _, exec_eval rd vi s,
    fun h => applied_setApply_of_eq (envExact_attack h) s rd .sat,
    fun h _ _ hg hg2 => applied_setApply_of_eq (envExact_decay h hg hg2) s rd .sat,
    fun h => applied_setApply_of_eq (envExact_sustain h) s rd .sat,
    fun h _ hg => applied_setApply_of_eq (envExact_release h hg) s rd .sat,
    fun h => applied_setApply_of_eq (envExact_finished h) s rd .sat⟩

/-! Restart and release (R213, R214). -/

theorem State.env_setEnv_ne (s : State) {k j : Fin 8} (x : Envelope) (h : j ≠ k) :
    (s.setEnv k x).env j = s.env j := by
  rw [State.env_setEnv, if_neg h]

/-- Settles O28: both commands write one envelope, and EOFF's release value is the word that EVAL writes. -/
theorem envelopeTriggerAndRelease : Obligations.EnvelopeTriggerAndRelease := fun s vi =>
  ⟨⟨decode_of_encV rfl rfl, _, rfl, rfl, s.env_setEnv_same _ _, fun _ he => s.env_setEnv_ne _ he⟩,
    decode_of_encV rfl rfl, _, _, rfl, exec_eval 0 vi s, rfl,
    by rw [State.env_setEnv_same, State.setApply, State.reg_setReg_same]; rfl,
    fun _ he => State.env_setEnv_ne _ _ he⟩

/-! Advance (R216, R217). -/

theorem State.envAdvance_of_off (h : s.cfg.envAdvance = .off) (k : Fin 8) : s.envAdvance k = s := by
  simp only [State.envAdvance, h]

theorem State.envAdvance_of_untimed (h : (s.env k).timed = none) : s.envAdvance k = s := by
  unfold State.envAdvance
  split
  · next hs => rw [h] at hs; cases hs
  · rfl

theorem Envelope.timed_eq_none (h : e.stage = .sustain ∨ e.stage = .finished) : e.timed = none := by
  obtain h | h := h <;> simp only [Envelope.timed, h]

/-- The stages that end, with what follows each and the rate that decides its end. -/
theorem Envelope.timed_eq_some {p : EnvStage × EnvStage × Word}
    (hp : p ∈ [(EnvStage.attack, EnvStage.decay, e.attackRate), (.decay, .sustain, e.decayRate),
      (.release, .finished, e.releaseRate)]) (h : e.stage = p.1) : e.timed = some p.2 := by
  fin_cases hp <;> simp only [Envelope.timed, h]

/-- The position after one advance (R217): ENV_STEP is added, saturating. -/
def State.nextPosition (s : State) (k : Fin 8) : Word :=
  applyWord .sat (sint (s.env k).position + sint s.cfg.envStep)

theorem State.nextPosition_reduced (s : State) (k : Fin 8) :
    Reduced .sat (sint (s.env k).position + sint s.cfg.envStep) (sint (s.nextPosition k)) := by
  rw [State.nextPosition, sint_applyWord]
  exact reduced_applyVal _ _

theorem State.envAdvance_of_step (hm : s.cfg.envAdvance = .step) {after : EnvStage} {rate : Word}
    (ht : (s.env k).timed = some (after, rate)) :
    s.envAdvance k = (s.raiseOv (overflows .sat (sint (s.env k).position + sint s.cfg.envStep))).setEnv k
      (if 2 ^ s.cfg.fS ≤ (sint (s.nextPosition k) * sint rate).fdiv (2 ^ s.cfg.fS)
        then { s.env k with stage := after, position := 0 }
        else { s.env k with position := s.nextPosition k }) := by
  simp only [State.envAdvance, hm, ht, fixmul_eq, one_sample_eq, State.nextPosition, sint_applyWord]
  rfl

/-- Settles O29: mode NONE and the untimed stages advance nothing; in mode STEP a timed stage writes its new position, or
the stage that follows at position 0. -/
theorem envelopeAdvance : Obligations.EnvelopeAdvance := by
  rintro s vi _ rfl
  refine ⟨decode_of_encV rfl rfl, fun h => congrArg Host.Outcome.next (State.envAdvance_of_off h _),
    fun h => congrArg Host.Outcome.next (State.envAdvance_of_untimed (Envelope.timed_eq_none h)), fun hm p hp hstage => ?_⟩
  have hadv := State.envAdvance_of_step hm (Envelope.timed_eq_some hp hstage)
  refine ⟨_, s.nextPosition (slotOf vi), congrArg Host.Outcome.next hadv, s.nextPosition_reduced _, rfl, ?_,
    fun _ hk => State.env_setEnv_ne _ _ hk, fun h => ?_, fun h => ?_⟩
  · simp [overflows, State.nextPosition]
  · rw [State.env_setEnv_same, if_pos h]
  · rw [State.env_setEnv_same, if_neg (not_le.mpr h)]

/-! The envelopes under the other commands (R210, R212, R262). -/

theorem Effect.envs_eq (h : Effect i s t) (hetrig : ∀ vi, i ≠ .etrig vi) (heoff : ∀ vi, i ≠ .eoff vi)
    (hsts : ∀ rd rs1 imm, i ≠ .sts rd rs1 imm)
    (hadv : s.cfg.envAdvance = .off ∨ ((∀ vi, i ≠ .eadv vi) ∧ ∀ rd rs1 rs2, i ≠ .run rd rs1 rs2)) :
    t.envs = s.envs := by
  cases h with
  | etrig vi hi => exact absurd hi (hetrig vi)
  | eoff vi hi => exact absurd hi (heoff vi)
  | sts rd rs1 imm hi => exact absurd hi (hsts rd rs1 imm)
  | eadv vi hi hstep =>
    obtain hoff | ⟨headv, -⟩ := hadv
    · rw [hstep] at hoff; cases hoff
    · exact absurd hi (headv vi)
  | run rd rs1 rs2 hi _ _ _ u hu =>
    obtain hoff | ⟨-, hrun⟩ := hadv
    · exact hu.envs hoff
    · exact absurd hi (hrun rd rs1 rs2)
  | _ => rfl

/-- Settles O30: of the effects that a command can have, those of EADV and RUN alone depend on the mode, and both leave
the envelopes as they are in mode NONE. -/
theorem onlyEnvelopeCommandsChangeEnvelopes : Obligations.OnlyEnvelopeCommandsChangeEnvelopes :=
  fun _ _ _ h => (Effect.of_exec h).envs_eq

end Sys2Proof.Machine
end

section
/-! PROOF. Voices, portamento and phase accumulators (45_voice.md R230 to R239). A glide is followed on its voice alone,
as iterates of `Voice.getNote`; the commands then carry it to the state. -/

namespace Sys2Proof.Machine

open Sys2Proof

variable {i : Instr} {s : State} {c : Config} {v : Voice} {k : Nat} {rd rs1 rs2 : Reg} {vi : VoiceIdx}

/-! Words of the voice unit's formats, as claims write them (30_encoding.md R81). -/

theorem decode_of_encVRs1 {op : BitVec 6} (h : encodeFields i = encVRs1 op 0 rs1 vi) (hwf : i.wf = true) :
    decode (wordV op 0 rs1 vi) = .ok i :=
  decode_of_encode_eq (by rw [encode, h, wordV_eq]; rfl) hwf

theorem decode_of_encR3 {op : BitVec 6} {w : BitVec 2} (h : encodeFields i = encR3 op w rd rs1 rs2)
    (hwf : i.wf = true) : decode (wordR op w rd rs1 rs2 0) = .ok i :=
  decode_of_encode_eq (by rw [encode, h, wordR_eq]; rfl) hwf

/-! Reduced words. -/

theorem reduced_applyWord (m : Ovf) (z : Int) : Reduced m z (sint (applyWord m z)) := by
  rw [sint_applyWord]
  exact reduced_applyVal m z

/-- A wrapped summand may as well be exact. -/
theorem applyWord_wrap_add (a b : Int) : applyWord .wrap (sint (applyWord .wrap a) + b) = applyWord .wrap (a + b) := by
  rw [sint_applyWord]
  exact congrArg toWord Int.bmod_add_bmod

/-! One voice changes. -/

theorem State.voice_setVoice_ne (s : State) {u w : Fin 8} (x : Voice) (h : w ≠ u) :
    (s.setVoice u x).voice w = s.voice w := by
  rw [State.voice_setVoice, if_neg h]

/-! Start and release (R230, R233, R234). -/

theorem exec_von_of_le (s : State) (vi : VoiceIdx) (h : rs1.toNat ≤ 12) :
    exec (.von rs1 vi) s =
      .next (s.voiceOn (slotOf vi) (s.reg rs1) (s.reg (rs1 + 1)) (s.reg (rs1 + 2)) (s.reg (rs1 + 3))) :=
  congrArg Host.Outcome.next (if_pos (decide_eq_true h))

/-- Settles O31: a quad that ends at r15 or before starts the voice, and both commands write one voice. -/
theorem voiceOnAndOff : Obligations.VoiceOnAndOff := fun s _ vi =>
  ⟨fun h => ⟨decode_of_encVRs1 rfl (decide_eq_true h), _, exec_von_of_le s vi h, rfl, s.voice_setVoice_same _ _,
      fun _ hv => s.voice_setVoice_ne _ hv⟩,
    decode_of_encV rfl rfl, _, rfl, rfl, s.voice_setVoice_same _ _, fun _ hv => s.voice_setVoice_ne _ hv⟩

/-! The start of a glide (R231). -/

theorem slideSamples_eq (c : Config) (v : Voice) : slideSamples c v = (sint v.slideTime).fdiv (2 ^ c.fQ) :=
  asr_eq_fdiv _ _

theorem slideSamples_fits (c : Config) (v : Voice) : fits32 (slideSamples c v) := asr_fits c.fQ (sint_bounds _)

theorem sint_toWord_slideSamples (c : Config) (v : Voice) : sint (toWord (slideSamples c v)) = slideSamples c v :=
  sint_toWord_of_fits (slideSamples_fits c v)

theorem uint_eq_toNat_sint {w : Word} (h : 0 ≤ sint w) : uint w = (sint w).toNat := by
  have hmsb : w.msb = false := by rwa [BitVec.msb_eq_toInt, decide_eq_false_iff_not, not_lt]
  rw [sint, BitVec.toInt_eq_toNat_of_msb hmsb, Int.toNat_natCast]

/-- A glide of T samples counts down from T. -/
theorem uint_toWord_slideSamples (h : 0 < slideSamples c v) :
    uint (toWord (slideSamples c v)) = (slideSamples c v).toNat := by
  have hs := sint_toWord_slideSamples c v
  rw [uint_eq_toNat_sint (h.le.trans_eq hs.symm), hs]

/-- What a glide adds to the note on each sample but its last. -/
def Voice.glideDelta (c : Config) (v : Voice) (target : Word) : Word :=
  applyWord .wrap ((sint target - sint v.currentNote).tdiv (slideSamples c v))

theorem Voice.slideStart_of_nonpos (h : slideSamples c v ≤ 0) (target : Word) :
    v.slideStart c target = { v with currentNote := target, note := target, destNote := target, slideActive := false,
                                     slideDelta := 0, slideRemaining := 0 } := if_pos h

theorem Voice.slideStart_of_pos (h : 0 < slideSamples c v) (target : Word) :
    v.slideStart c target = { v with destNote := target, slideDelta := v.glideDelta c target,
                                     slideRemaining := toWord (slideSamples c v), slideActive := true } :=
  if_neg (not_le.mpr h)

/-! One portamento step (R232). -/

theorem Voice.getNote_of_idle (h : v.slideActive = false) : v.getNote = v := by
  simp [Voice.getNote, h]

theorem Voice.getNote_of_last (ha : v.slideActive = true) (hr : uint v.slideRemaining ≤ 1) :
    v.getNote = { v with currentNote := v.destNote, note := v.destNote, slideActive := false,
                         slideRemaining := 0 } := by
  rw [Voice.getNote, if_pos ha, if_pos hr]

theorem Voice.getNote_of_more (ha : v.slideActive = true) (hr : 2 ≤ uint v.slideRemaining) :
    v.getNote = { v with slideRemaining := v.slideRemaining - 1,
                         currentNote := applyWord .wrap (sint v.currentNote + sint v.slideDelta) } := by
  rw [Voice.getNote, if_pos ha, if_neg (by omega)]
  rfl

theorem uint_sub_one {w : Word} (h : 2 ≤ uint w) : uint (w - 1) + 1 = uint w := by
  unfold uint at *
  bv_omega

/-- The state after VGETN. -/
def State.noteStepped (s : State) (rd : Reg) (vi : VoiceIdx) : State :=
  (s.setVoice (slotOf vi) (s.voice (slotOf vi)).getNote).setReg rd (s.voice (slotOf vi)).getNote.currentNote

theorem exec_vgetn (s : State) (rd : Reg) (vi : VoiceIdx) : exec (.vgetn rd vi) s = .next (s.noteStepped rd vi) := rfl

@[simp] theorem State.noteStepped_voice (s : State) (rd : Reg) (vi : VoiceIdx) :
    (s.noteStepped rd vi).voice (slotOf vi) = (s.voice (slotOf vi)).getNote := by
  simp [State.noteStepped]

@[simp] theorem State.noteStepped_reg (s : State) (rd : Reg) (vi : VoiceIdx) :
    (s.noteStepped rd vi).reg rd = (s.voice (slotOf vi)).getNote.currentNote := by
  simp [State.noteStepped]

theorem State.noteStepped_wrote (s : State) (rd : Reg) (vi : VoiceIdx) :
    Wrote { s with voices := (s.noteStepped rd vi).voices } rd
      ((s.noteStepped rd vi).voice (slotOf vi)).currentNote (s.noteStepped rd vi) := by
  rw [State.noteStepped_voice]
  exact wrote_setReg (s.setVoice _ _) rd _

/-- The state after VSLIDE. -/
def State.slideStarted (s : State) (rs1 : Reg) (vi : VoiceIdx) : State :=
  s.setVoice (slotOf vi) ((s.voice (slotOf vi)).slideStart s.cfg (s.reg rs1))

theorem exec_vslide (s : State) (rs1 : Reg) (vi : VoiceIdx) :
    exec (.vslide rs1 vi) s = .next (s.slideStarted rs1 vi) := rfl

@[simp] theorem State.slideStarted_voice (s : State) (rs1 : Reg) (vi : VoiceIdx) :
    (s.slideStarted rs1 vi).voice (slotOf vi) = (s.voice (slotOf vi)).slideStart s.cfg (s.reg rs1) :=
  s.voice_setVoice_same _ _

/-- Settles O32: both commands write one voice, VSLIDE by the sign of the glide's whole samples and VGETN by the samples
that remain. -/
theorem portamentoCommands : Obligations.PortamentoCommands := by
  rintro s rd rs1 vi _ _ rfl rfl
  rw [← slideSamples_eq]
  refine ⟨⟨decode_of_encVRs1 rfl rfl, _, exec_vslide s rs1 vi, rfl, fun _ hk => s.voice_setVoice_ne _ hk, ?_, ?_⟩,
    decode_of_encVRd rfl rfl, _, exec_vgetn s rd vi, s.noteStepped_wrote rd vi,
    fun _ hk => s.voice_setVoice_ne _ hk, ?_⟩
  · rw [State.slideStarted_voice]
    exact fun h => Voice.slideStart_of_nonpos h _
  · rw [State.slideStarted_voice]
    exact fun h => ⟨_, _, reduced_applyWord _ _, sint_toWord_slideSamples _ _, Voice.slideStart_of_pos h _⟩
  · rw [State.noteStepped_voice]
    exact ⟨Voice.getNote_of_idle, Voice.getNote_of_last, fun ha hr =>
      ⟨_, _, reduced_applyWord _ _, uint_sub_one hr, Voice.getNote_of_more ha hr⟩⟩

/-! A whole glide (R239), on its voice. -/

/-- A gliding voice after k portamento steps, before the last one: its note moved by k deltas, and k samples fewer
remain. -/
def Voice.glided (v : Voice) (k : Nat) : Voice :=
  { v with slideRemaining := v.slideRemaining - BitVec.ofNat 32 k,
           currentNote := applyWord .wrap (sint v.currentNote + k * sint v.slideDelta) }

theorem Voice.glided_zero (v : Voice) : v.glided 0 = v := by
  simp [Voice.glided, applyWord, applyVal, wrap32_sint]

theorem Voice.glided_remaining (h : k ≤ uint v.slideRemaining) :
    uint (v.glided k).slideRemaining = uint v.slideRemaining - k := by
  have hk : (BitVec.ofNat 32 k).toNat = k := Nat.mod_eq_of_lt (h.trans_lt v.slideRemaining.isLt)
  rw [Voice.glided, uint, BitVec.toNat_sub_of_le (BitVec.le_def.mpr (hk.le.trans h)), hk]

theorem Voice.getNote_glided (ha : v.slideActive = true) (h : k + 1 < uint v.slideRemaining) :
    (v.glided k).getNote = v.glided (k + 1) := by
  have hr := Voice.glided_remaining (v := v) (k := k) (by omega)
  have hcount : v.slideRemaining - BitVec.ofNat 32 k - 1 = v.slideRemaining - BitVec.ofNat 32 (k + 1) := by
    rw [BitVec.ofNat_add, ← sub_sub]; rfl
  rw [Voice.getNote_of_more (v := v.glided k) ha (by omega)]
  simp only [Voice.glided]
  rw [hcount, applyWord_wrap_add, Nat.cast_succ, add_one_mul, add_assoc]

theorem Voice.iterate_getNote (ha : v.slideActive = true) (h : k < uint v.slideRemaining) :
    Voice.getNote^[k] v = v.glided k := by
  induction k with
  | zero => exact v.glided_zero.symm
  | succ k ih => rw [Function.iterate_succ_apply', ih (by omega), Voice.getNote_glided ha h]

theorem Voice.iterate_getNote_last (ha : v.slideActive = true) (h : uint v.slideRemaining = k + 1) :
    Voice.getNote^[k + 1] v = { v with currentNote := v.destNote, note := v.destNote, slideActive := false,
                                       slideRemaining := 0 } := by
  have hr := Voice.glided_remaining (v := v) (k := k) (by omega)
  rw [Function.iterate_succ_apply', Voice.iterate_getNote ha (by omega),
    Voice.getNote_of_last (v := v.glided k) ha (by omega)]
  rfl

/-- After its T steps a glide has landed. -/
theorem Voice.slide_lands {u : Voice} {target : Word}
    (hu : u = Voice.getNote^[(slideSamples c v).toNat] (v.slideStart c target)) :
    u.currentNote = target ∧ u.note = target ∧ u.slideActive = false := by
  subst hu
  obtain h | h := le_or_gt (slideSamples c v) 0
  · rw [Int.toNat_of_nonpos h, Voice.slideStart_of_nonpos h]
    exact ⟨rfl, rfl, rfl⟩
  · obtain ⟨n, hn⟩ : ∃ n, (slideSamples c v).toNat = n + 1 := Nat.exists_eq_add_one.mpr (by omega)
    rw [hn, Voice.slideStart_of_pos h, Voice.iterate_getNote_last rfl ((uint_toWord_slideSamples h).trans hn)]
    exact ⟨rfl, rfl, rfl⟩

/-- Before its last step a glide has moved the note by one delta a step. -/
theorem Voice.slide_note_reduced {u : Voice} {target : Word} (hk : (k : Int) < slideSamples c v)
    (hu : u = Voice.getNote^[k] (v.slideStart c target)) :
    Reduced .wrap (sint v.currentNote + k * sint u.slideDelta) (sint u.currentNote) := by
  have h : 0 < slideSamples c v := by omega
  have hr := uint_toWord_slideSamples h
  rw [Voice.slideStart_of_pos h, Voice.iterate_getNote rfl (by dsimp only; omega)] at hu
  subst hu
  exact reduced_applyWord _ _

/-! The same, by commands. -/

/-- VGETN k times over is k portamento steps of the voice; rd holds the current note once one was taken. -/
theorem execAll_vgetn (rd : Reg) (vi : VoiceIdx) (k : Nat) (s : State) :
    ∃ t, execAll (List.replicate k (.vgetn rd vi)) s t ∧
      t.voice (slotOf vi) = Voice.getNote^[k] (s.voice (slotOf vi)) ∧
      (0 < k ∨ s.reg rd = (s.voice (slotOf vi)).currentNote → t.reg rd = (t.voice (slotOf vi)).currentNote) := by
  induction k generalizing s with
  | zero => exact ⟨s, rfl, rfl, by simp⟩
  | succ k ih =>
    obtain ⟨t, hrun, hvoice, hreg⟩ := ih (s.noteStepped rd vi)
    rw [State.noteStepped_voice] at hvoice
    exact ⟨t, ⟨_, exec_vgetn s rd vi, hrun⟩, hvoice, fun _ => hreg (.inr (by simp))⟩

theorem execAll_vslide_vgetn (rd rs1 : Reg) (vi : VoiceIdx) (k : Nat) (s : State) :
    ∃ t, execAll (.vslide rs1 vi :: List.replicate k (.vgetn rd vi)) s t ∧
      t.voice (slotOf vi) = Voice.getNote^[k] ((s.voice (slotOf vi)).slideStart s.cfg (s.reg rs1)) ∧
      (0 < k → t.reg rd = (t.voice (slotOf vi)).currentNote) := by
  obtain ⟨t, hrun, hvoice, hreg⟩ := execAll_vgetn rd vi k (s.slideStarted rs1 vi)
  exact ⟨t, ⟨_, exec_vslide s rs1 vi, hrun⟩, s.slideStarted_voice rs1 vi ▸ hvoice, fun h => hreg (.inl h)⟩

/-- Settles O33: the commands iterate the voice's own steps, and VGETN's result is the note it stepped to. -/
theorem portamentoIsExact : Obligations.PortamentoIsExact := by
  rintro s rd rs1 vi _ rfl
  rw [← slideSamples_eq]
  refine ⟨?_, fun k hk => ?_⟩
  · obtain ⟨t, hrun, hvoice, hreg⟩ :=
      execAll_vslide_vgetn rd rs1 vi (slideSamples s.cfg (s.voice (slotOf vi))).toNat s
    obtain ⟨hcur, hnote, hidle⟩ := Voice.slide_lands hvoice
    exact ⟨t, hrun, hcur, hnote, hidle, fun h => (hreg (by omega)).trans hcur⟩
  · obtain ⟨t, hrun, hvoice, -⟩ := execAll_vslide_vgetn rd rs1 vi k s
    exact ⟨t, hrun, Voice.slide_note_reduced hk hvoice⟩

/-! Phases (R237, R238). -/

theorem phaseSum_eq_emod (c : Config) (w : Width) (a b : Int) : phaseSum c w a b = (a + b) % 2 ^ frac c w :=
  fract_eq_emod _ _

theorem phaseSum_fits (hl : c.legal = true) (w : Width) (a b : Int) : fits32 (phaseSum c w a b) :=
  fract_fits (frac_le hl w) _

theorem phaccAt_wrote (hl : s.cfg.legal = true) (w : Width) (rd rs1 rs2 : Reg) :
    ∃ t, phaccAt w rd rs1 rs2 s = .next t ∧ WroteInt s rd ((s.x rs1 + s.x rs2) % 2 ^ frac s.cfg w) t :=
  ⟨_, rfl, phaseSum_eq_emod s.cfg w _ _ ▸ wroteInt_setResult s rd (phaseSum_fits hl w _ _)⟩

theorem sint_result32_phaseSum (hl : c.legal = true) (w : Width) (a b : Int) :
    sint (result32 (phaseSum c w a b)) = (a + b) % 2 ^ frac c w :=
  (sint_result32 (phaseSum_fits hl w a b)).trans (phaseSum_eq_emod c w a b)

/-- Settles O34: under a legal configuration the fractional field of any sum is a word's value. -/
theorem phaseAccumulators : Obligations.PhaseAccumulators := by
  intro s rd rs1 rs2 vi hl
  refine ⟨fun p hp => ?_, decode_of_encVRs1 rfl rfl, _, _, rfl, sint_result32_phaseSum hl .sample _ _, rfl,
    s.voice_setVoice_same _ _, fun _ hv => s.voice_setVoice_ne _ hv⟩
  fin_cases hp <;> exact ⟨decode_of_encR3 rfl rfl, phaccAt_wrote hl _ rd rs1 rs2⟩

end Sys2Proof.Machine
end

section
/-! PROOF. The scans of the engine that treat each slot by itself (46_engine.md R250 to R252, R258, R264): what a scan
leaves at one slot is said once, whatever the scan does there. -/

namespace Sys2Proof.Machine

open Sys2Proof

variable {s : State} {k : Fin 8}

/-- A scan whose step changes the value at its own slot alone changes each slot once. -/
theorem foldl_get {α : Type} {get : State → Fin 8 → α} {f : State → Fin 8 → State} {g : α → α}
    (hf : ∀ s v u, get (f s v) u = if u = v then g (get s u) else get s u) {l : List (Fin 8)} (hl : l.Nodup)
    (s : State) (u : Fin 8) : get (l.foldl f s) u = if u ∈ l then g (get s u) else get s u := by
  induction l generalizing s with
  | nil => simp
  | cons v l ih =>
    obtain ⟨hv, hl⟩ := List.nodup_cons.mp hl
    rw [List.foldl_cons, ih hl, hf]
    by_cases hu : u = v
    · subst hu; simp [hv]
    · simp [hu]

/-- The same for a scan of all the slots. -/
theorem foldl_slots_get {α : Type} {get : State → Fin 8 → α} {f : State → Fin 8 → State} {g : α → α}
    (hf : ∀ s v u, get (f s v) u = if u = v then g (get s u) else get s u) (s : State) (u : Fin 8) :
    get (slots.foldl f s) u = g (get s u) := by
  rw [foldl_get hf slots_nodup, if_pos (mem_slots u)]

theorem State.voice_of_voices_eq {s t : State} (h : t.voices = s.voices) (v : Fin 8) : t.voice v = s.voice v := by
  unfold State.voice; simp only [h]

/-! Voices: ANOFF and release by note. -/

/-- A voice that goes off and keeps its other fields (45_voice.md R234). -/
def Voice.turnOff (v : Voice) : Voice := { v with isOn := false }

/-- A voice after RELEASE: it goes off where it is on and its NOTE is the note (46_engine.md R258). -/
def Voice.releaseNote (note : Word) (v : Voice) : Voice := if v.isOn = true ∧ v.note = note then v.turnOff else v

theorem State.silence_voice (s : State) (v u : Fin 8) :
    (s.silence v).voice u = if u = v then (s.voice u).turnOff else s.voice u := by
  rw [State.silence, State.voice_setVoice]
  split
  · next h => subst h; rfl
  · rfl

theorem State.releaseVoice_eq (note : Word) (s : State) (v : Fin 8) :
    s.releaseVoice note v = s.setVoice v ((s.voice v).releaseNote note) := by
  unfold State.releaseVoice Voice.releaseNote
  split
  · rfl
  · exact (s.setVoice_self v).symm

theorem State.releaseVoice_voice (note : Word) (s : State) (v u : Fin 8) :
    (s.releaseVoice note v).voice u = if u = v then (s.voice u).releaseNote note else s.voice u := by
  rw [State.releaseVoice_eq, State.voice_setVoice]
  split
  · next h => subst h; rfl
  · rfl

theorem State.release_voice (s : State) (note : Word) (u : Fin 8) :
    (s.release note).voice u = (s.voice u).releaseNote note :=
  foldl_slots_get (get := State.voice) (State.releaseVoice_voice note) s u

theorem State.release_rest (s : State) (note : Word) :
    s.release note = { s with voices := (s.release note).voices } :=
  List.foldlRecOn (motive := fun t : State => t = { s with voices := t.voices }) slots (State.releaseVoice note) rfl
    fun t ht v _ => by rw [State.releaseVoice_eq, ht]; rfl

/-- Settles O44: the scan releases each voice once, by the voice's own words. -/
theorem releaseByNote : Obligations.ReleaseByNote := fun s note =>
  ⟨s.release_rest note, fun v =>
    ⟨fun h => (s.release_voice note v).trans (if_pos h), fun h => (s.release_voice note v).trans (if_neg h)⟩⟩

/-! Events. -/

theorem State.clearEvent_event (s : State) (k u : Fin 8) :
    (s.clearEvent k).event u = if u = k then Event.cleared else s.event u := s.event_setEvent k u _

/-- The state after ANOFF. -/
def State.silenced (s : State) : State :=
  slots.foldl State.clearEvent
    { slots.foldl State.silence s with activeNotes := Vector.replicate 4 0, noteCount := 0 }

theorem exec_anoff (s : State) : exec .anoff s = .next s.silenced := rfl

theorem State.silenced_rest (s : State) :
    s.silenced = { s with voices := s.silenced.voices, activeNotes := Vector.replicate 4 0, noteCount := 0,
                          events := s.silenced.events } := by
  obtain ⟨vs, hvs⟩ := foldl_silence s slots
  obtain ⟨es, hes⟩ := foldl_clearEvent
    { slots.foldl State.silence s with activeNotes := Vector.replicate 4 0, noteCount := 0 } slots
  unfold State.silenced
  rw [hes, hvs]

theorem State.silenced_activeNotes (s : State) : s.silenced.activeNotes = Vector.replicate 4 0 :=
  congrArg State.activeNotes s.silenced_rest

theorem foldl_clearEvent_voices (s : State) (l : List (Fin 8)) : (l.foldl State.clearEvent s).voices = s.voices := by
  obtain ⟨es, hes⟩ := foldl_clearEvent s l
  rw [hes]

theorem State.silenced_voices (s : State) : s.silenced.voices = (slots.foldl State.silence s).voices := by
  rw [State.silenced, foldl_clearEvent_voices]

theorem State.silenced_voice (s : State) (v : Fin 8) : s.silenced.voice v = (s.voice v).turnOff := by
  rw [State.voice_of_voices_eq s.silenced_voices]
  exact foldl_slots_get (get := State.voice) State.silence_voice s v

theorem State.silenced_event (s : State) (k : Fin 8) : s.silenced.event k = Event.cleared :=
  foldl_slots_get (get := State.event) (g := fun _ => Event.cleared) State.clearEvent_event _ k

/-- Settles O36: the scans turn each voice off and clear each slot; the note log is written whole. -/
theorem allNotesOff : Obligations.AllNotesOff := by
  intro s
  refine ⟨decode_of_encode_eq (by decide) rfl, s.silenced, exec_anoff s, ?_, s.silenced_voice, fun i => ?_,
    s.silenced_event⟩
  · rw [s.silenced_activeNotes]
    exact s.silenced_rest
  · simp [s.silenced_activeNotes]

/-- With every slot in use the event is dropped (46_engine.md R250). -/
theorem State.enqueue_full (h : ∀ k, (s.event k).kind ≠ .free) (e : Event) : s.enqueue e = s := by
  unfold State.enqueue
  generalize slots = l
  induction l with
  | nil => rfl
  | cons k l ih => rw [State.enqueueIn, if_neg (h k), ih]

/-- The first free slot of an ascending scan takes the event. -/
theorem State.enqueueIn_first {l : List (Fin 8)} (hl : l.Pairwise (· < ·)) (hk : k ∈ l)
    (hfree : (s.event k).kind = .free) (hfirst : ∀ j, j < k → (s.event j).kind ≠ .free) (e : Event) :
    s.enqueueIn e l = s.setEvent k e := by
  induction l with
  | nil => cases hk
  | cons j l ih =>
    obtain ⟨hj, hl⟩ := List.pairwise_cons.mp hl
    rw [State.enqueueIn]
    obtain rfl | hk := List.mem_cons.mp hk
    · exact if_pos hfree
    · rw [if_neg (hfirst j (hj k hk))]
      exact ih hl hk

theorem slots_sorted : slots.Pairwise (· < ·) := by decide

theorem State.enqueue_first (hfree : (s.event k).kind = .free) (hfirst : ∀ j, j < k → (s.event j).kind ≠ .free)
    (e : Event) : s.enqueue e = s.setEvent k e :=
  State.enqueueIn_first slots_sorted (mem_slots k) hfree hfirst e

theorem State.event_setEvent_ne (s : State) {k j : Fin 8} (x : Event) (h : j ≠ k) :
    (s.setEvent k x).event j = s.event j := by
  rw [State.event_setEvent, if_neg h]

/-- Settles O35: both commands put one event into the queue. -/
theorem queueEvents : Obligations.QueueEvents := by
  intro s rs1 rs2 rs3
  refine ⟨decode_of_encR3 rfl rfl, decode_of_encR3 rfl rfl, fun p hp => ?_⟩
  have hexec : exec p.1 s = .next (s.enqueue p.2) := by fin_cases hp <;> rfl
  rw [hexec]
  refine ⟨fun h => by rw [State.enqueue_full h], fun k hfree hfirst => ?_⟩
  rw [State.enqueue_first hfree hfirst]
  exact ⟨_, rfl, rfl, s.event_setEvent_same k _, fun _ hj => s.event_setEvent_ne _ hj⟩

end Sys2Proof.Machine
end

section
/-! PROOF. Unison allocation (46_engine.md R256, R257). Which voices a scan claims, and with which index, is a relation
of the state before the scan (`State.Claims`); the scan's voices and its OV are then read off it. -/

namespace Sys2Proof.Machine

open Sys2Proof

variable {s : State} {note velocity : Word} {k n U : Nat} {l : List (Fin 8)} {j u v : Fin 8}

/-! Which voices a scan claims. -/

/-- The number of free voices of a list that are below v. -/
def State.freeBefore (s : State) (l : List (Fin 8)) (v : Fin 8) : Nat :=
  (l.filter fun u => u < v ∧ (s.voice u).isOn = false).length

/-- A scan of the voices `l` after k claims claims voice v as the claim number n. -/
def State.Claims (s : State) (k : Nat) (l : List (Fin 8)) (v : Fin 8) (n : Nat) : Prop :=
  v ∈ l ∧ (s.voice v).isOn = false ∧ n = k + s.freeBefore l v ∧ n < uint s.knobs.unisono

theorem State.freeBefore_cons_on (h : (s.voice j).isOn = true) (l : List (Fin 8)) (v : Fin 8) :
    s.freeBefore (j :: l) v = s.freeBefore l v := by
  simp [State.freeBefore, h]

theorem State.freeBefore_cons_lt (h : (s.voice j).isOn = false) (l : List (Fin 8)) (hv : j < v) :
    s.freeBefore (j :: l) v = s.freeBefore l v + 1 := by
  simp [State.freeBefore, h, hv]

theorem State.freeBefore_eq_zero (h : ∀ u ∈ l, v ≤ u) : s.freeBefore l v = 0 := by
  simp only [State.freeBefore, List.length_eq_zero_iff, List.filter_eq_nil_iff, decide_eq_true_iff]
  exact fun u hu ⟨hlt, _⟩ => (h u hu).not_gt hlt

theorem State.not_claims_of_full (h : uint s.knobs.unisono ≤ k) : ¬s.Claims k l v n :=
  fun ⟨_, _, hn, hlt⟩ => by omega

theorem State.claims_cons_on (h : (s.voice j).isOn = true) : s.Claims k (j :: l) v n ↔ s.Claims k l v n := by
  rw [State.Claims, State.freeBefore_cons_on h, List.mem_cons, State.Claims]
  refine and_congr_left fun ⟨hv, _⟩ => or_iff_right ?_
  rintro rfl
  rw [h] at hv
  cases hv

theorem State.claims_cons_free (h : (s.voice j).isOn = false) (hk : k < uint s.knobs.unisono)
    (hl : ∀ u ∈ l, j < u) : s.Claims k (j :: l) v n ↔ (v = j ∧ n = k) ∨ s.Claims (k + 1) l v n := by
  by_cases hv : v = j
  · subst hv
    have h0 : s.freeBefore (v :: l) v = 0 := State.freeBefore_eq_zero fun u hu => by
      obtain rfl | hu := List.mem_cons.mp hu
      · exact le_refl _
      · exact (hl u hu).le
    have hnot : v ∉ l := fun hv => lt_irrefl v (hl v hv)
    simp only [State.Claims, h0, h, hnot, List.mem_cons_self]
    grind
  · have hmem : v ∈ j :: l ↔ v ∈ l := List.mem_cons.trans (or_iff_right hv)
    simp only [State.Claims, hmem, hv, false_and, false_or]
    refine and_congr_right fun hvl => ?_
    rw [State.freeBefore_cons_lt h l (hl v hvl)]
    grind

/-! One claim. -/

/-- The fraction of the claim number n (46_engine.md R256). -/
def State.claimFraction (s : State) (n : Nat) : Int :=
  unisonFraction s.cfg (uint s.knobs.unisono) (uint s.knobs.unisono - 1 - n)

/-- Voice v after it was claimed as the claim number n. -/
def State.claimedVoice (s : State) (note velocity : Word) (n : Nat) (v : Fin 8) : Voice :=
  (s.voice v).turnOn note velocity (unisonDetune s (s.claimFraction n))
    (applyWord .sat (unisonPan s (s.claimFraction n))) s.knobs.slideTime

/-- The state after the claim number n took voice v. -/
def State.afterClaim (s : State) (note velocity : Word) (n : Nat) (v : Fin 8) : State :=
  s.claim v (uint s.knobs.unisono) (uint s.knobs.unisono - 1 - n) note velocity

theorem State.afterClaim_voice_same (s : State) (note velocity : Word) (n : Nat) (v : Fin 8) :
    (s.afterClaim note velocity n v).voice v = s.claimedVoice note velocity n v := State.voice_setVoice_same _ _ _

theorem State.afterClaim_voice_ne (h : u ≠ v) : (s.afterClaim note velocity n v).voice u = s.voice u :=
  State.voice_setVoice_ne _ _ h

theorem State.afterClaim_ov (s : State) (note velocity : Word) (n : Nat) (v : Fin 8) :
    (s.afterClaim note velocity n v).ov = (s.ov || overflows .sat (unisonPan s (s.claimFraction n))) := rfl

theorem State.afterClaim_unisonPan (s : State) (note velocity : Word) (n m : Nat) (v : Fin 8) :
    unisonPan (s.afterClaim note velocity n v) ((s.afterClaim note velocity n v).claimFraction m) =
      unisonPan s (s.claimFraction m) := rfl

/-- Claiming a voice changes no other voice's claim. -/
theorem State.afterClaim_claimedVoice (h : u ≠ v) (m : Nat) :
    (s.afterClaim note velocity n v).claimedVoice note velocity m u = s.claimedVoice note velocity m u := by
  unfold State.claimedVoice
  rw [State.afterClaim_voice_ne h]
  rfl

theorem State.afterClaim_claims (hl : v ∉ l) {k' m : Nat} :
    (s.afterClaim note velocity n v).Claims k' l u m ↔ s.Claims k' l u m := by
  have hne : ∀ w ∈ l, w ≠ v := fun w hw e => hl (e ▸ hw)
  have hcount : (s.afterClaim note velocity n v).freeBefore l u = s.freeBefore l u := by
    unfold State.freeBefore
    rw [List.filter_congr fun w hw => by rw [State.afterClaim_voice_ne (hne w hw)]]
  refine and_congr_right fun hu => ?_
  rw [hcount, State.afterClaim_voice_ne (hne u hu)]
  rfl

/-! The scan. -/

theorem State.allocateIn_of_full (h : uint s.knobs.unisono ≤ k) (l : List (Fin 8)) :
    s.allocateIn note velocity k l = s := by
  cases l with
  | nil => rfl
  | cons j l => exact if_pos h

theorem State.allocateIn_cons_on (hk : k < uint s.knobs.unisono) (h : (s.voice j).isOn = true) (l : List (Fin 8)) :
    s.allocateIn note velocity k (j :: l) = s.allocateIn note velocity k l :=
  (if_neg hk.not_ge).trans (if_pos h)

theorem State.allocateIn_cons_free (hk : k < uint s.knobs.unisono) (h : (s.voice j).isOn = false) (l : List (Fin 8)) :
    s.allocateIn note velocity k (j :: l) = (s.afterClaim note velocity k j).allocateIn note velocity (k + 1) l :=
  (if_neg hk.not_ge).trans (if_neg (by simp [h]))

/-- A scan changes the voices that it claims, and no other. -/
theorem State.allocateIn_voice (hl : l.Pairwise (· < ·)) (s : State) (k : Nat) (v : Fin 8) :
    (∀ n, s.Claims k l v n → (s.allocateIn note velocity k l).voice v = s.claimedVoice note velocity n v) ∧
      ((∀ n, ¬s.Claims k l v n) → (s.allocateIn note velocity k l).voice v = s.voice v) := by
  induction l generalizing s k with
  | nil => exact ⟨fun _ ⟨hv, _⟩ => (nomatch hv), fun _ => rfl⟩
  | cons j l ih =>
    obtain ⟨hj, hl⟩ := List.pairwise_cons.mp hl
    obtain hk | hk := le_or_gt (uint s.knobs.unisono) k
    · rw [State.allocateIn_of_full hk]
      exact ⟨fun _ hc => absurd hc (State.not_claims_of_full hk), fun _ => rfl⟩
    · cases h : (s.voice j).isOn with
      | true =>
        rw [State.allocateIn_cons_on hk h]
        simp only [State.claims_cons_on h]
        exact ih hl s k
      | false =>
        rw [State.allocateIn_cons_free hk h]
        simp only [State.claims_cons_free h hk hj]
        have hjl : j ∉ l := fun hjl => lt_irrefl j (hj j hjl)
        obtain ⟨claimed, kept⟩ := ih hl (s.afterClaim note velocity k j) (k + 1)
        simp only [State.afterClaim_claims hjl] at claimed kept
        by_cases hv : v = j
        · subst hv
          have hkept : (State.allocateIn _ note velocity (k + 1) l).voice v = s.claimedVoice note velocity k v :=
            (kept fun _ ⟨hvl, _⟩ => hjl hvl).trans (s.afterClaim_voice_same note velocity k v)
          refine ⟨fun n hn => ?_, fun hn => absurd (.inl ⟨rfl, rfl⟩) (hn k)⟩
          obtain ⟨-, rfl⟩ | ⟨hvl, -⟩ := hn
          · exact hkept
          · exact absurd hvl hjl
        · simp only [hv, false_and, false_or]
          exact ⟨fun n hn => (claimed n hn).trans (State.afterClaim_claimedVoice hv n),
            fun hn => (kept hn).trans (State.afterClaim_voice_ne hv)⟩

/-- A scan sets OV where the pan of a claimed voice is not kept. -/
theorem State.allocateIn_ov (hl : l.Pairwise (· < ·)) (s : State) (k : Nat) :
    (s.allocateIn note velocity k l).ov = true ↔ s.ov = true ∨
      ∃ v n, s.Claims k l v n ∧ overflows .sat (unisonPan s (s.claimFraction n)) = true := by
  induction l generalizing s k with
  | nil => exact (or_iff_left fun ⟨_, _, ⟨hv, _⟩, _⟩ => nomatch hv).symm
  | cons j l ih =>
    obtain ⟨hj, hl⟩ := List.pairwise_cons.mp hl
    obtain hk | hk := le_or_gt (uint s.knobs.unisono) k
    · rw [State.allocateIn_of_full hk]
      exact (or_iff_left fun ⟨_, _, hc, _⟩ => State.not_claims_of_full hk hc).symm
    · cases h : (s.voice j).isOn with
      | true =>
        rw [State.allocateIn_cons_on hk h]
        simp only [State.claims_cons_on h]
        exact ih hl s k
      | false =>
        rw [State.allocateIn_cons_free hk h, ih hl]
        have hjl : j ∉ l := fun hjl => lt_irrefl j (hj j hjl)
        simp only [State.claims_cons_free h hk hj, State.afterClaim_claims hjl, State.afterClaim_ov,
          State.afterClaim_unisonPan, Bool.or_eq_true, or_assoc, or_and_right, exists_or, and_assoc,
          exists_and_left, exists_eq_left]

theorem State.allocateIn_rest (note velocity : Word) (l : List (Fin 8)) (s : State) (k : Nat) :
    s.allocateIn note velocity k l =
      { s with voices := (s.allocateIn note velocity k l).voices, ov := (s.allocateIn note velocity k l).ov } := by
  induction l generalizing s k with
  | nil => rfl
  | cons j l ih =>
    obtain hk | hk := le_or_gt (uint s.knobs.unisono) k
    · rw [State.allocateIn_of_full hk]
    · cases h : (s.voice j).isOn with
      | true => rw [State.allocateIn_cons_on hk h]; exact ih s k
      | false => rw [State.allocateIn_cons_free hk h]; exact ih (s.afterClaim note velocity k j) (k + 1)

/-! The numbers of a claim. -/

/-- A quotient by 2^F lies between two integers where the dividend lies between their multiples. -/
theorem asr_mem {a lo hi : Int} {F : Nat} (h1 : lo * 2 ^ F ≤ a) (h2 : a ≤ hi * 2 ^ F) :
    lo ≤ asr a F ∧ asr a F ≤ hi := by
  have hF : (0 : Int) < 2 ^ F := by positivity
  rw [asr_eq]
  exact ⟨(Int.le_ediv_iff_mul_le hF).mpr h1, Int.ediv_le_of_le_mul hF h2⟩

theorem unisonFraction_eq (c : Config) (h : n < U) :
    unisonFraction c U (U - 1 - n) = (((U : Int) - 1 - n) * 2 ^ c.fS).tdiv (max ((U : Int) - 1) 1) := by
  rw [unisonFraction, tdiv, shl_eq, show ((U - 1 - n : Nat) : Int) = (U : Int) - 1 - n by omega]

/-- The fraction of a claim lies between 0 and 1.0. -/
theorem unisonFraction_bounds (c : Config) (h : n < U) :
    0 ≤ unisonFraction c U (U - 1 - n) ∧ unisonFraction c U (U - 1 - n) ≤ 2 ^ c.fS := by
  have hF : (0 : Int) < 2 ^ c.fS := by positivity
  have hj : (0 : Int) ≤ (U : Int) - 1 - n := by omega
  rw [unisonFraction_eq c h, Int.tdiv_eq_ediv_of_nonneg (by positivity)]
  refine ⟨Int.ediv_nonneg (by positivity) (by omega), Int.ediv_le_of_le_mul (by omega) ?_⟩
  rw [mul_comm]
  exact mul_le_mul_of_nonneg_left (by omega) hF.le

theorem sint_unisonDetune {f : Int} (h0 : 0 ≤ f) (h1 : f ≤ 2 ^ s.cfg.fS) :
    sint (unisonDetune s f) = (f * sint s.knobs.detuneSpread).fdiv (2 ^ s.cfg.fS) := by
  obtain ⟨hlo, hhi⟩ := sint_bounds s.knobs.detuneSpread
  have hfits : fits32 (asr (f * sint s.knobs.detuneSpread) s.cfg.fS) := asr_mem (by nlinarith) (by nlinarith)
  rw [unisonDetune, sint_result32 hfits, asr_eq_fdiv]

theorem unisonPan_eq (s : State) (f : Int) :
    unisonPan s f = ((2 * f - 2 ^ s.cfg.fS) * sint s.knobs.panSpread).fdiv (2 ^ s.cfg.fS) := by
  rw [unisonPan, one_sample_eq, asr_eq_fdiv]

/-- The pan of a claim fits a word but for a spread of -2^31, whose negation is no word's value. -/
theorem unisonPan_fits {f : Int} (h0 : 0 ≤ f) (h1 : f ≤ 2 ^ s.cfg.fS)
    (hp : sint s.knobs.panSpread ≠ -2147483648) : fits32 (unisonPan s f) := by
  obtain ⟨hlo, hhi⟩ := sint_bounds s.knobs.panSpread
  have hlo' : -2147483647 ≤ sint s.knobs.panSpread := by omega
  obtain ⟨hmin, hmax⟩ : -2147483647 ≤ unisonPan s f ∧ unisonPan s f ≤ 2147483647 := by
    rw [unisonPan, one_sample_eq]
    exact asr_mem (by nlinarith) (by nlinarith)
  exact ⟨hmin.trans' (by decide), hmax⟩

/-! The obligations. -/

theorem State.claims_slots_iff :
    s.Claims 0 slots v n ↔
      (s.voice v).isOn = false ∧ n = s.freeBefore (List.finRange 8) v ∧ n < uint s.knobs.unisono := by
  simp [State.Claims, slots_eq]

theorem State.claimFraction_bounds (h : n < uint s.knobs.unisono) :
    0 ≤ s.claimFraction n ∧ s.claimFraction n ≤ 2 ^ s.cfg.fS := unisonFraction_bounds s.cfg h

theorem State.allocate_voice_claimed (hc : s.Claims 0 slots v n) :
    (s.allocate note velocity).voice v = s.claimedVoice note velocity n v :=
  (State.allocateIn_voice slots_sorted s 0 v).1 n hc

theorem State.allocate_ov : (s.allocate note velocity).ov = true ↔ s.ov = true ∨
    ∃ v n, s.Claims 0 slots v n ∧
      sint ((s.allocate note velocity).voice v).pan ≠ unisonPan s (s.claimFraction n) := by
  refine (State.allocateIn_ov slots_sorted s 0).trans (or_congr_right ?_)
  refine exists_congr fun v => exists_congr fun n => and_congr_right fun hc => ?_
  rw [State.allocate_voice_claimed hc, State.claimedVoice, Voice.turnOn, sint_applyWord, overflows, decide_eq_true_iff]

theorem State.allocate_ov_of_spread (h : sint s.knobs.panSpread ≠ -2147483648) :
    (s.allocate note velocity).ov = s.ov := by
  rw [Bool.eq_iff_iff, State.allocate, State.allocateIn_ov slots_sorted]
  refine or_iff_left fun ⟨v, n, ⟨_, _, _, hn⟩, hov⟩ => ?_
  obtain ⟨h0, h1⟩ := State.claimFraction_bounds hn
  rw [overflows_of_fits _ (unisonPan_fits h0 h1 h)] at hov
  cases hov

/-- Settles O42: the scan claims the first free voices, and each claim has its own numbers. -/
theorem unisonAllocation : Obligations.UnisonAllocation := by
  rintro s note velocity _ - rfl
  refine ⟨State.allocateIn_rest note velocity slots s 0, State.allocate_ov_of_spread,
    State.allocate_ov.trans (or_congr_right ?_), ?_⟩
  · refine exists_congr fun v => exists_congr fun n => ?_
    rw [State.claims_slots_iff]
    constructor
    · rintro ⟨⟨hoff, hn, hlt⟩, hpan⟩
      rw [unisonPan_eq] at hpan
      exact ⟨_, hn, hoff, hlt, unisonFraction_eq s.cfg hlt, hpan⟩
    · rintro ⟨_, hn, hoff, hlt, rfl, hpan⟩
      rw [← unisonFraction_eq s.cfg hlt, ← unisonPan_eq] at hpan
      exact ⟨⟨hoff, hn, hlt⟩, hpan⟩
  · rintro v k hk
    refine ⟨fun h => ?_, fun hoff hlt => ?_⟩
    · refine (State.allocateIn_voice slots_sorted s 0 v).2 fun n hc => ?_
      obtain ⟨hoff, hn, hlt⟩ := State.claims_slots_iff.mp hc
      obtain hon | hle := h
      · rw [hoff] at hon; cases hon
      · exact hle.not_gt (hk.trans hn.symm ▸ hlt)
    · obtain ⟨h0, h1⟩ := State.claimFraction_bounds hlt
      exact ⟨_, _, _, unisonFraction_eq s.cfg hlt, sint_unisonDetune h0 h1,
        unisonPan_eq s _ ▸ reduced_applyWord .sat _,
        State.allocate_voice_claimed (State.claims_slots_iff.mpr ⟨hoff, hk, hlt⟩)⟩

/-- With no voice on, the voices below v are all free. -/
theorem freeBefore_of_off (hoff : ∀ v, (s.voice v).isOn = false) (v : Fin 8) :
    s.freeBefore (List.finRange 8) v = v.val := by
  simp only [State.freeBefore, hoff, and_true]
  revert v
  decide

theorem Reduced.eq_of_fits {m : Ovf} {z x : Int} (h : Reduced m z x) (hz : fits32 z) : x = z :=
  (reduced_iff.mp h).trans (applyVal_of_fits m hz)

/-- The fraction of an index j among three voices is j/2. -/
theorem fraction_of_three {j q P : Int} (h : j * P = 2 * q) : (j * P).tdiv (max (((3 : Nat) : Int) - 1) 1) = q := by
  rw [h]
  exact Int.mul_tdiv_cancel_left q (by decide)

/-- Settles O43: three voices of an empty pool have the fractions 1.0, 0.5 and 0. -/
theorem unisonOfThree : Obligations.UnisonOfThree := by
  intro s note velocity hl h3 hoff
  obtain ⟨-, -, -, hvoice⟩ := unisonAllocation s note velocity 3 hl h3.symm
  have kept (v : Fin 8) (h : 3 ≤ v.val) := (hvoice v v.val (freeBefore_of_off hoff v).symm).1 (.inr h)
  have claimed (v : Fin 8) (h : v.val < 3) := (hvoice v v.val (freeBefore_of_off hoff v).symm).2 (hoff v) h
  have hP : (2 : Int) ^ s.cfg.fS ≠ 0 := by positivity
  have half : (2 : Int) ^ s.cfg.fS = 2 * 2 ^ (s.cfg.fS - 1) := by
    rw [← pow_succ', Nat.sub_add_cancel (by have := legal_frac hl; omega)]
  obtain ⟨f0, d0, p0, hf0, hd0, hp0, hv0⟩ := claimed 0 (by decide)
  obtain ⟨f1, d1, p1, hf1, hd1, hp1, hv1⟩ := claimed 1 (by decide)
  obtain ⟨f2, d2, p2, hf2, hd2, hp2, hv2⟩ := claimed 2 (by decide)
  rw [fraction_of_three (q := 2 ^ s.cfg.fS) (by norm_num)] at hf0
  rw [fraction_of_three (q := 2 ^ (s.cfg.fS - 1)) (by rw [half]; norm_num)] at hf1
  rw [fraction_of_three (q := 0) (by norm_num)] at hf2
  subst hf0 hf1 hf2
  refine ⟨_, rfl, fun v => ?_, ?_⟩
  · obtain h | h := lt_or_ge v.val 3
    · obtain ⟨_, _, _, -, -, -, hv⟩ := claimed v h
      simp [hv, h]
    · simp [kept v h, hoff v, h.not_gt]
  · simp only [hv0, hv1, hv2]
    refine ⟨?_, ?_, ?_, ?_, ?_, ?_⟩
    · rw [hd0, Int.mul_fdiv_cancel_left _ hP]
    · rw [hd1, mul_comm]
    · rw [hd2, zero_mul, Int.zero_fdiv]
    · rw [two_mul, add_sub_cancel_right, Int.mul_fdiv_cancel_left _ hP] at hp0
      exact hp0.eq_of_fits (sint_bounds _)
    · rw [← half, sub_self, zero_mul, Int.zero_fdiv] at hp1
      exact hp1.eq_of_fits (by decide)
    · rwa [mul_zero, zero_sub, neg_mul_comm, Int.mul_fdiv_cancel_left _ hP] at hp2

end Sys2Proof.Machine
end

section
/-! PROOF. RUN (46_engine.md R253 to R262, R265). A RUN that passes its checks is `runPasses`, which is taken one pass
at a time (`PassDone`, `runPasses_induction`); what the whole loop does to one event slot is `SlotRun`, kept by every
pass. -/

namespace Sys2Proof.Machine

open Sys2Proof

variable {s t u : State} {rd rs1 rs2 : Reg} {len base fuel start r pos pos' a : Nat} {k v : Fin 8}

/-! The checks and the frame (R253, R261, R306). -/

/-- The state after a RUN that passes its checks: RD receives the position. -/
def State.ran (s : State) (rd rs1 : Reg) (len base : Nat) : State :=
  (runPasses len base len (s.ux rs1) s).2.setReg rd (BitVec.ofNat 32 (runPasses len base len (s.ux rs1) s).1)

theorem exec_run_passed (hl : len = s.ux rs2 / 65536) (hb : base = s.ux rs2 % 65536) (h0 : len ≠ 0)
    (hin : base + len ≤ s.cfg.bufWords) : exec (.run rd rs1 rs2) s = .next (s.ran rd rs1 len base) := by
  rw [exec_run hl hb, if_neg h0, if_neg hin.not_gt]
  rfl

theorem State.ran_reg_ne {r : Reg} (h : r ≠ rd) : (s.ran rd rs1 len base).reg r = s.reg r :=
  (State.reg_setReg_ne _ _ h).trans (State.reg_of_regs_eq (runPasses_frame _ _ _ _ s (le_refl base) (le_refl _)).regs r)

theorem State.ran_ux (s : State) (rd rs1 : Reg) (len base : Nat) :
    (s.ran rd rs1 len base).ux rd = (runPasses len base len (s.ux rs1) s).1 % 2 ^ 32 := by
  rw [State.ran, State.ux_setReg_same]
  exact BitVec.toNat_ofNat _ _

/-- Settles O37: both checks come first, and every pass of the loop keeps the frame of RUN. -/
theorem runChecksAndFrame : Obligations.RunChecksAndFrame := by
  intro s rd rs1 rs2 len base hl hb
  refine ⟨decode_of_encR3 rfl rfl, fun h0 => ?_, fun h0 hout => ?_, fun h0 hin => ?_⟩
  · rw [exec_run hl hb, if_pos h0]
    rfl
  · rw [exec_run hl hb, if_neg h0, if_pos hout]
    rfl
  · have frame := runPasses_frame len base len (s.ux rs1) s (le_refl base) (le_refl (base + len))
    refine ⟨_, exec_run_passed hl hb h0 hin, ?_, fun r => State.ran_reg_ne, frame.buf, frame.ov, frame.envs⟩
    unfold State.ran
    generalize (runPasses len base len (s.ux rs1) s).2 = u at frame ⊢
    rw [frame.rest]
    rfl

/-! One pass (R254). -/

/-- What a pass from BUF word `start` on with r samples left does: it renders n samples and leaves the state t. A free
slot stays free, a due one is freed, and any other counts down by n; a loop whose samples reach the end of the pass
begins with it. -/
structure PassDone (start r : Nat) (s : State) (n : Nat) (t : State) : Prop where
  pos : 1 ≤ n
  le : n ≤ r
  cfg : t.cfg = s.cfg
  free (k : Fin 8) : (s.event k).kind = .free → t.event k = s.event k
  due (k : Fin 8) : (s.event k).kind ≠ .free → uint (s.event k).delta = 0 → t.event k = Event.cleared
  pending (k : Fin 8) : (s.event k).kind ≠ .free → uint (s.event k).delta ≠ 0 →
    ∃ d : Word, uint d + n = uint (s.event k).delta ∧ t.event k = { s.event k with delta := d }
  loop (left pos pos' : Nat) (u : State) : n ≤ left → left ≤ r →
    RunLoop (start + n) (left - n) ((pos + songAdvance s.cfg n) % 2 ^ 32) t pos' u → RunLoop start left pos s pos' u

/-- What follows the scan in a pass counts the pending events down. -/
theorem elapse_render_event {n : Nat} (hpend : ∀ k, (u.event k).kind ≠ .free → n ≤ uint (u.event k).delta)
    (start : Nat) (k : Fin 8) :
    ((u.event k).kind = .free → ((u.render start n).elapse n).event k = u.event k) ∧
      ((u.event k).kind ≠ .free → ∃ d : Word, uint d + n = uint (u.event k).delta ∧
        ((u.render start n).elapse n).event k = { u.event k with delta := d }) := by
  have rendered (j : Fin 8) : (u.render start n).event j = u.event j := event_of_events (u.render_events start n) j
  obtain ⟨-, elapsed⟩ := elapse_elapsed (s := u.render start n) (n := n) fun j => by rw [rendered]; exact hpend j
  rw [← rendered k]
  exact elapsed k

/-- The scan leaves each slot free, or pending for at least the samples of the pass. -/
theorem passDone_of_fireDue {n : Nat} (hd : s.fireDue r = (n, u)) (h0 : r ≠ 0) (start : Nat) :
    PassDone start r s n ((u.render start n).elapse n) := by
  obtain ⟨frame, hle, hpos, hscan⟩ := fireDue_spec (lo := start) (hi := start + n) r s
  have pend := fireDue_pending r s
  rw [hd] at frame hle hpos pend
  simp only [hd] at hscan
  have counted := elapse_render_event (u := u) (n := n)
    (fun k hk => by
      obtain ⟨hkept, hbound⟩ := pend k hk
      rwa [hkept]) start
  refine ⟨hpos (by omega), hle, ?_, fun k hfree => ?_, fun k hk hzero => ?_, fun k hk hzero => ?_,
    fun left pos pos' w hn hr => RunLoop.ofPass hd h0 hn hr⟩
  · exact ((frame.trans (render_frame u start n (le_refl _) (le_refl _))).trans (elapse_frame _ n)).cfg
  · obtain ⟨-, -, hkept⟩ := hscan k
    have hkept := hkept hfree
    obtain ⟨hstays, -⟩ := counted k
    exact (hstays (hkept ▸ hfree)).trans hkept
  · obtain ⟨hcleared, -, -⟩ := hscan k
    have hcleared := hcleared hk (BitVec.eq_of_toNat_eq hzero)
    obtain ⟨hstays, -⟩ := counted k
    exact (hstays (by rw [hcleared]; rfl)).trans hcleared
  · obtain ⟨-, hpending, -⟩ := hscan k
    obtain ⟨hkept, -⟩ := hpending hk fun h => hzero (by rw [h]; rfl)
    obtain ⟨-, hcounts⟩ := counted k
    rw [hkept] at hcounts
    exact hcounts hk

/-- The passes of RUN are a pass and the passes that are left. -/
theorem exists_pass (s : State) (start : Nat) (h0 : r ≠ 0) : ∃ n t, PassDone start r s n t ∧ ∀ fuel pos,
    runPasses (fuel + 1) start r pos s =
      runPasses fuel (start + n) (r - n) ((pos + songAdvance s.cfg n) % 2 ^ 32) t := by
  rcases hd : s.fireDue r with ⟨n, u⟩
  refine ⟨n, _, passDone_of_fireDue hd h0 start, fun fuel pos => ?_⟩
  rw [runPasses, if_neg h0, hd]

/-- Induction over the passes of RUN. -/
theorem runPasses_induction {P : Nat → Nat → Nat → State → Nat → State → Prop}
    (done : ∀ start pos s, P start 0 pos s pos s)
    (pass : ∀ start r pos s n t pos' u, PassDone start r s n t →
      RunLoop (start + n) (r - n) ((pos + songAdvance s.cfg n) % 2 ^ 32) t pos' u →
      P (start + n) (r - n) ((pos + songAdvance s.cfg n) % 2 ^ 32) t pos' u → P start r pos s pos' u)
    (hf : r ≤ fuel) : P start r pos s (runPasses fuel start r pos s).1 (runPasses fuel start r pos s).2 := by
  induction fuel generalizing start r pos s with
  | zero =>
    obtain rfl : r = 0 := by omega
    exact done start pos s
  | succ fuel ih =>
    obtain rfl | h0 := eq_or_ne r 0
    · exact done start pos s
    · obtain ⟨n, t, hpass, hrun⟩ := exists_pass s start h0
      have hpos := hpass.pos
      have hrest : r - n ≤ fuel := by omega
      rw [hrun fuel pos]
      exact pass start r pos s n t _ _ hpass (runPasses_loop fuel _ _ _ t hrest) (ih hrest)

/-! The song position (R254, R260). -/

theorem songAdvance_of_samples {c : Config} (h : c.songUnits = 48000) (n : Nat) : songAdvance c n = n := by
  rw [songAdvance, h]
  exact Nat.mul_div_cancel n (by decide)

theorem runPasses_position (hc : s.cfg.songUnits = 48000) (hf : r ≤ fuel) :
    (runPasses fuel start r pos s).1 % 2 ^ 32 = (pos + r) % 2 ^ 32 := by
  revert hc
  refine runPasses_induction
    (P := fun _ r pos s pos' _ => s.cfg.songUnits = 48000 → pos' % 2 ^ 32 = (pos + r) % 2 ^ 32)
    (fun _ _ _ _ => rfl) (fun start r pos s n t pos' u hpass _ ih hc => ?_) hf
  have hle := hpass.le
  rw [ih (hpass.cfg ▸ hc), songAdvance_of_samples hc]
  omega

/-- The position stays an unsigned word. -/
theorem runPasses_position_lt (hp : pos < 2 ^ 32) (hf : r ≤ fuel) : (runPasses fuel start r pos s).1 < 2 ^ 32 := by
  revert hp
  exact runPasses_induction (P := fun _ _ pos _ pos' _ => pos < 2 ^ 32 → pos' < 2 ^ 32) (fun _ _ _ hp => hp)
    (fun _ _ _ _ _ _ _ _ _ _ ih _ => ih (Nat.mod_lt _ (by decide))) hf

/-- Settles O38: the advances of the passes add up where none of them rounds, and with no event queued there is one
pass. -/
theorem runAdvancesSongPosition : Obligations.RunAdvancesSongPosition := by
  intro s rd rs1 rs2 len base hl hb h0 hin
  refine ⟨_, exec_run_passed hl hb h0 hin, fun hc => ?_, fun hfree => ?_⟩
  · rw [State.ran_ux, runPasses_position hc (le_refl len)]
  · rw [State.ran_ux, runPasses_free hfree h0 (le_refl len)]
    exact Nat.mod_mod _ _

/-! The events (R254, R255, R259). -/

/-- What a loop of r samples from s to t does to slot k: a free slot stays free, an event due within the samples is
reached after exactly its DELTA and its slot ends free, and any other counts down. -/
structure SlotRun (k : Fin 8) (start r pos : Nat) (s : State) (pos' : Nat) (t : State) : Prop where
  free : (s.event k).kind = .free → t.event k = s.event k
  due : (s.event k).kind ≠ .free → uint (s.event k).delta < r → t.event k = Event.cleared ∧
    ∃ q v, RunLoop start (uint (s.event k).delta) pos s q v ∧ v.event k = { s.event k with delta := 0 } ∧
      RunLoop (start + uint (s.event k).delta) (r - uint (s.event k).delta) q v pos' t
  pending : (s.event k).kind ≠ .free → r ≤ uint (s.event k).delta →
    ∃ d : Word, uint d + r = uint (s.event k).delta ∧ t.event k = { s.event k with delta := d }

theorem SlotRun.done (k : Fin 8) (start pos : Nat) (s : State) : SlotRun k start 0 pos s pos s where
  free _ := rfl
  due _ h := absurd h (Nat.not_lt_zero _)
  pending _ _ := ⟨_, rfl, rfl⟩

/-- A pass before the loop: the event counts down by the pass, or is due at once. -/
theorem SlotRun.pass {n : Nat} (hpass : PassDone start r s n t)
    (loop : RunLoop (start + n) (r - n) ((pos + songAdvance s.cfg n) % 2 ^ 32) t pos' u)
    (rest : SlotRun k (start + n) (r - n) ((pos + songAdvance s.cfg n) % 2 ^ 32) t pos' u) :
    SlotRun k start r pos s pos' u := by
  have hle := hpass.le
  refine ⟨fun hfree => ?_, fun hk hlt => ?_, fun hk hge => ?_⟩
  · have hev := hpass.free k hfree
    exact (rest.free (hev ▸ hfree)).trans hev
  · by_cases hd : uint (s.event k).delta = 0
    · have hev := hpass.due k hk hd
      refine ⟨(rest.free (by rw [hev]; rfl)).trans hev, pos, s, ?_, ?_, ?_⟩
      · rw [hd]
        exact .done _ _ _
      · rw [← show (s.event k).delta = 0 from BitVec.eq_of_toNat_eq hd]
      · rw [hd]
        exact hpass.loop r pos pos' u hle (le_refl r) loop
    · obtain ⟨d, hcount, hev⟩ := hpass.pending k hk hd
      have hdue := rest.due
      rw [hev] at hdue
      obtain ⟨hclear, q, v, before, hv, after⟩ := hdue hk (by dsimp only; omega)
      dsimp only at before hv after
      refine ⟨hclear, q, v, hpass.loop _ pos q v (by omega) hlt.le ?_, hv, ?_⟩
      · rwa [show uint (s.event k).delta - n = uint d by omega]
      · rwa [show start + uint (s.event k).delta = start + n + uint d by omega,
          show r - uint (s.event k).delta = r - n - uint d by omega]
  · have hpos := hpass.pos
    obtain ⟨d, hcount, hev⟩ := hpass.pending k hk (by omega)
    have hpend := rest.pending
    rw [hev] at hpend
    obtain ⟨d', hd', hev'⟩ := hpend hk (by dsimp only; omega)
    dsimp only at hd' hev'
    exact ⟨d', by omega, hev'⟩

theorem runPasses_slot (k : Fin 8) (hf : r ≤ fuel) :
    SlotRun k start r pos s (runPasses fuel start r pos s).1 (runPasses fuel start r pos s).2 :=
  runPasses_induction (P := SlotRun k) (SlotRun.done k) (fun _ _ _ _ _ _ _ _ => SlotRun.pass) hf

/-- Settles O39: the passes are the loop of R254, and each slot is followed through them. -/
theorem runConsumesDueEvents : Obligations.RunConsumesDueEvents := by
  intro s rd rs1 rs2 len base hl hb h0 hin
  have loop := runPasses_loop len base len (s.ux rs1) s (le_refl len)
  have slot (k : Fin 8) := runPasses_slot (start := base) (pos := s.ux rs1) (s := s) k (le_refl len)
  refine ⟨_, _, _, exec_run_passed hl hb h0 hin, loop, rfl, ?_, fun r => State.ran_reg_ne,
    fun k => ⟨(slot k).free, (slot k).due, (slot k).pending⟩⟩
  rw [State.ran_ux]
  exact Nat.mod_eq_of_lt (runPasses_position_lt (uint_lt _) (le_refl len))

/-! Rendering (R262). -/

theorem exec_eadv (s : State) (vi : VoiceIdx) : exec (.eadv vi) s = .next (s.envAdvance (slotOf vi)) := rfl

theorem State.envAdvance_voices (s : State) (k : Fin 8) : (s.envAdvance k).voices = s.voices := by
  unfold State.envAdvance
  split <;> rfl

theorem voices_of_exec_eadv {vi : VoiceIdx} (h : exec (.eadv vi) s = .next t) : t.voices = s.voices := by
  rw [exec_eadv] at h
  cases h
  exact s.envAdvance_voices _

/-- A voice's share of a sample leaves the other voices alone. -/
theorem VoiceRendered.voice_ne (h : VoiceRendered a v s t) (hk : k ≠ v) : t.voice k = s.voice k := by
  cases hv : (s.voice v).isOn with
  | false => rw [h.1 hv]
  | true =>
    obtain ⟨g, e, y, out, -, -, -, -, -, hne, -, -, -, hadv⟩ := h.2 hv
    exact (State.voice_of_voices_eq (voices_of_exec_eadv hadv) k).trans (hne k hk)

/-- A voice's share of a sample takes the voice's portamento step and stores two phases. -/
theorem VoiceRendered.voice_same (h : VoiceRendered a v s t) (hv : (s.voice v).isOn = true) :
    ∃ osc vib, t.voice v = { (s.voice v).getNote with oscPhase := osc, vibPhase := vib } := by
  obtain ⟨g, e, y, out, hg, -, -, -, hsame, -, -, -, -, hadv⟩ := h.2 hv
  rw [exec_vgetn] at hg
  cases hg
  have hnote : (s.noteStepped 0 (BitVec.ofFin v)).voice v = (s.voice v).getNote :=
    s.noteStepped_voice 0 (BitVec.ofFin v)
  rw [hnote] at hsame
  exact ⟨_, _, (State.voice_of_voices_eq (voices_of_exec_eadv hadv) v).trans hsame⟩

/-- A sample in which voice v alone is on is that voice's share. -/
theorem State.renderSample_one (a : Nat) (hon : ∀ k, (s.voice k).isOn = true ↔ k = v) :
    s.renderSample a = s.renderVoice a v := by
  obtain ⟨l, l', hslots⟩ := List.append_of_mem (mem_slots v)
  have hnodup := slots_nodup
  rw [hslots, List.nodup_middle, List.nodup_cons, List.mem_append, not_or] at hnodup
  obtain ⟨⟨hl, hl'⟩, -⟩ := hnodup
  have hoff (k : Fin 8) (hk : k ≠ v) : (s.voice k).isOn = false := by
    rw [← Bool.not_eq_true, hon]
    exact hk
  rw [State.renderSample, hslots, List.foldl_append, List.foldl_cons,
    foldl_renderVoice_off a s l fun k hk => hoff k fun e => hl (e ▸ hk), foldl_renderVoice_off]
  intro k hk
  have hne : k ≠ v := fun e => hl' (e ▸ hk)
  rw [(renderVoice_rendered a s v).voice_ne hne]
  exact hoff k hne

/-- With no event queued RUN renders its block in one pass. -/
theorem State.ran_of_free (hfree : ∀ k, (s.event k).kind = .free) (h0 : len ≠ 0) (rd rs1 : Reg) (base : Nat) :
    s.ran rd rs1 len base =
      (s.render base len).setReg rd (BitVec.ofNat 32 ((s.ux rs1 + songAdvance s.cfg len) % 2 ^ 32)) := by
  rw [State.ran, runPasses_free hfree h0 (le_refl len)]

/-- Settles O40: with no event queued RUN is one pass, and a sample with one voice on is that voice's share of it. -/
theorem runRendersOneVoice : Obligations.RunRendersOneVoice := by
  intro s rd rs1 rs2 len base hl hb h0 hin hfree
  have hran := State.ran_of_free hfree h0 rd rs1 base
  refine ⟨_, _, exec_run_passed hl hb h0 hin, render_rendered s base len, hran ▸ rfl, fun r => State.ran_reg_ne,
    fun v h1 hoff hon => ?_⟩
  subst h1
  have hone : s.render base 1 = s.renderVoice base v := s.renderSample_one base hon
  obtain ⟨g, e, y, out, hg, he, hout, hrest, hsame, hne, hsum, -, hov, hadv⟩ :=
    (renderVoice_rendered base s v).2 ((hon v).mpr rfl)
  have hcfg : y.cfg.envAdvance = .off := by rw [hrest]; exact hoff
  rw [exec_eadv, State.envAdvance_of_off hcfg] at hadv
  cases hadv
  rw [hran, hone]
  exact ⟨out, g, e, hg, he, hout, hsum, hsame, hne, hov⟩

/-! The source's scenario (R265). -/

/-- With no voice on, rendering changes nothing. -/
theorem State.render_off (hoff : ∀ v, (s.voice v).isOn = false) (start n : Nat) : s.render start n = s := by
  induction n generalizing start with
  | zero => rfl
  | succ n ih =>
    rw [State.render, State.renderSample, foldl_renderVoice_off start s slots fun v _ => hoff v]
    exact ih (start + 1)

/-- With no voice on and no event queued, RUN leaves BUF alone. -/
theorem exec_run_silent (hfree : ∀ k, (s.event k).kind = .free) (hoff : ∀ v, (s.voice v).isOn = false)
    (rd rs1 rs2 : Reg) : ∃ t, exec (.run rd rs1 rs2) s = .next t ∧ ∀ a, t.bufRead a = s.bufRead a := by
  refine ⟨_, exec_run rfl rfl, fun a => ?_⟩
  split
  · rfl
  · next h0 =>
    split
    · rfl
    · rw [State.setReg_bufRead, runPasses_free hfree h0 (le_refl _), State.render_off hoff]

theorem State.silenced_bufRead (s : State) (a : Nat) : s.silenced.bufRead a = s.bufRead a := by
  rw [s.silenced_rest]
  rfl

/-- A voice that sounds the note, and does not glide. -/
def Voice.Sounds (note : Word) (v : Voice) : Prop := v.isOn = true ∧ v.note = note ∧ v.slideActive = false

/-- Voice v alone sounds, with the note. -/
def State.SoundsAlone (v : Fin 8) (note : Word) (s : State) : Prop :=
  (s.voice v).Sounds note ∧ ∀ k, k ≠ v → (s.voice k).isOn = false

theorem State.SoundsAlone.renderVoice {note : Word} (h : s.SoundsAlone v note) (a : Nat) (u : Fin 8) :
    (s.renderVoice a u).SoundsAlone v note := by
  have hr := renderVoice_rendered a s u
  by_cases hu : u = v
  · subst hu
    obtain ⟨⟨hon, hnote, hidle⟩, hoff⟩ := h
    obtain ⟨osc, vib, hv⟩ := hr.voice_same hon
    rw [Voice.getNote_of_idle hidle] at hv
    refine ⟨?_, fun k hk => hr.voice_ne hk ▸ hoff k hk⟩
    rw [hv]
    exact ⟨hon, hnote, hidle⟩
  · rw [hr.1 (h.2 u hu)]
    exact h

theorem State.SoundsAlone.renderSample {note : Word} (h : s.SoundsAlone v note) (a : Nat) :
    (s.renderSample a).SoundsAlone v note := by
  unfold State.renderSample
  exact List.foldlRecOn (motive := State.SoundsAlone v note) slots (State.renderVoice a) h
    fun _ hs u _ => hs.renderVoice a u

theorem State.SoundsAlone.render {note : Word} (h : s.SoundsAlone v note) (start n : Nat) :
    (s.render start n).SoundsAlone v note := by
  induction n generalizing s start with
  | zero => exact h
  | succ n ih =>
    rw [State.render]
    exact ih (h.renderSample start) (start + 1)

theorem State.allocate_events (s : State) (note velocity : Word) : (s.allocate note velocity).events = s.events :=
  State.allocateIn_events note velocity slots 0 s

/-- With UNISONO 1 and no voice on, ALLOCATE claims voice 0 alone. -/
theorem State.allocate_soundsAlone (hU : uint s.knobs.unisono = 1) (hoff : ∀ v, (s.voice v).isOn = false)
    (note velocity : Word) : (s.allocate note velocity).SoundsAlone 0 note := by
  have hclaims (v : Fin 8) (n : Nat) : s.Claims 0 slots v n ↔ n = v.val ∧ n < 1 := by
    rw [State.claims_slots_iff, freeBefore_of_off hoff, hU]
    exact and_iff_right (hoff v)
  refine ⟨?_, fun k hk => ?_⟩
  · rw [State.allocate_voice_claimed ((hclaims 0 0).mpr ⟨rfl, one_pos⟩)]
    exact ⟨rfl, rfl, rfl⟩
  · refine ((State.allocateIn_voice slots_sorted s 0 k).2 fun n hn => hk ?_) ▸ hoff k
    obtain ⟨hn, hlt⟩ := (hclaims k n).mp hn
    exact Fin.ext (by omega)

theorem State.SoundsAlone.note_eq {note : Word} (h : s.SoundsAlone v note) : (s.voice v).note = note := by
  obtain ⟨⟨-, hnote, -⟩, -⟩ := h
  exact hnote

theorem State.SoundsAlone.isOn_iff {note : Word} (h : s.SoundsAlone v note) (k : Fin 8) :
    (s.voice k).isOn = true ↔ k = v := by
  obtain ⟨⟨hon, -⟩, hoff⟩ := h
  refine ⟨fun hk => ?_, fun hk => hk ▸ hon⟩
  by_contra hne
  rw [hoff k hne] at hk
  cases hk

/-- A scan that leaves no event queued after slot 0 ends there, and no event bounds the samples. -/
theorem fireDue_of_fireSlot_zero (h : fireSlot (r, s) 0 = (r, u)) (hfree : ∀ k, (u.event k).kind = .free) :
    s.fireDue r = (r, u) := by
  have hslots : slots = 0 :: slots.tail := rfl
  have hidle : fireSlot (r, u) 0 = (r, u) := if_pos (hfree 0)
  rw [← State.fireDue_free r hfree, State.fireDue, State.fireDue, hslots, List.foldl_cons, List.foldl_cons, h, hidle]

theorem runPasses_done (fuel start pos : Nat) (s : State) : runPasses fuel start 0 pos s = (pos, s) := by
  cases fuel <;> rfl

theorem runPasses_of_whole_pass (hd : s.fireDue r = (r, u)) (hfree : ∀ k, (u.event k).kind = .free) (h0 : r ≠ 0)
    (hf : r ≤ fuel) : (runPasses fuel start r pos s).2 = u.render start r := by
  obtain ⟨fuel, rfl⟩ : ∃ f, fuel = f + 1 := Nat.exists_eq_add_one.mpr (by omega)
  have helapse : (u.render start r).elapse r = u.render start r :=
    State.elapse_free r fun k => by rw [event_of_events (State.render_events u start r)]; exact hfree k
  rw [runPasses, if_neg h0, hd]
  simp only [Nat.sub_self, runPasses_done, helapse]

/-- A note-on that is due in slot 0, with UNISONO 1 and nothing else queued or on, sounds in voice 0 after RUN. -/
theorem State.ran_noteOn {note velocity : Word}
    (hk : s.event 0 = { kind := .noteOn, delta := 0, note := note, velocity := velocity })
    (hfree : ∀ k, k ≠ 0 → (s.event k).kind = .free) (hU : uint s.knobs.unisono = 1)
    (hoff : ∀ v, (s.voice v).isOn = false) (h0 : len ≠ 0) (rd rs1 : Reg) (base : Nat) :
    (s.ran rd rs1 len base).SoundsAlone 0 note ∧ ∀ k, ((s.ran rd rs1 len base).event k).kind = .free := by
  have hfire : s.fire 0 = s.allocate note velocity := by rw [State.fire, hk]
  have hfired : fireSlot (len, s) 0 = (len, (s.allocate note velocity).clearEvent 0) := by
    rw [fireSlot, hk, hfire]
    rfl
  have hfree' (k : Fin 8) : (((s.allocate note velocity).clearEvent 0).event k).kind = .free := by
    rw [State.clearEvent_event]
    split
    · rfl
    · next hne =>
      rw [event_of_events (State.allocate_events s note velocity)]
      exact hfree k hne
  have hsounds : ((s.allocate note velocity).clearEvent 0).SoundsAlone 0 note :=
    State.allocate_soundsAlone hU hoff note velocity
  generalize (s.allocate note velocity).clearEvent 0 = u at hfired hfree' hsounds
  have hrun : (runPasses len base len (s.ux rs1) s).2 = u.render base len :=
    runPasses_of_whole_pass (fireDue_of_fireSlot_zero hfired hfree') hfree' h0 (le_refl len)
  rw [State.ran, hrun]
  refine ⟨hsounds.render base len, fun k => ?_⟩
  rw [State.setReg_event, event_of_events (State.render_events u base len)]
  exact hfree' k

/-- Settles O41: the note-on takes slot 0, fires in RUN's only pass and sounds in voice 0; after ANOFF there is nothing
to render. -/
theorem endToEndScenario : Obligations.EndToEndScenario := by
  intro s rd rs1 rs2 rs3 r4 r5 hU hfree hoff hdelta hlen hin
  have hqueue : exec (.noteon rs1 rs2 rs3) s =
      .next (s.setEvent 0 { kind := .noteOn, delta := s.reg rs3, note := s.reg rs1, velocity := s.reg rs2 }) :=
    congrArg Host.Outcome.next (State.enqueue_first (hfree 0) (fun j hj => absurd hj (Fin.not_lt_zero j)) _)
  rw [hdelta] at hqueue
  obtain ⟨hsounds, hempty⟩ := State.ran_noteOn (note := s.reg rs1) (velocity := s.reg rs2) (s.event_setEvent_same 0 _)
    (fun k hk => (congrArg Event.kind (s.event_setEvent_ne _ hk)).trans (hfree k)) hU hoff hlen rd r5 (s.ux r4 % 65536)
  refine ⟨_, ⟨_, hqueue, _, exec_run_passed rfl rfl hlen hin, rfl⟩, hsounds.isOn_iff, hsounds.note_eq, hempty, ?_⟩
  intro rd' r4' r5'
  generalize State.ran _ rd r5 _ _ = t
  obtain ⟨u, hu, hbuf⟩ := exec_run_silent (s := t.silenced) (fun k => congrArg Event.kind (t.silenced_event k))
    (fun v => congrArg Voice.isOn (t.silenced_voice v)) rd' r5' r4'
  exact ⟨u, ⟨_, exec_anoff t, u, hu, rfl⟩, fun a => (hbuf a).trans (t.silenced_bufRead a)⟩

end Sys2Proof.Machine
end

section
/-! PROOF. LDS, STS, LDB and STB (47_access.md R280 to R284): each is a read or a write at the effective address, which
the lemmas on the state space and on BUF describe, and a fault where there is nothing to read or to write. -/

namespace Sys2Proof.Machine

open Sys2Proof

variable {i : Instr} {s t : State} {rd rs1 : Reg} {imm : BitVec 16} {w : Word} {c : Cause}

/-! What each command does with what it finds at the effective address. -/

theorem exec_lds_of_some (h : s.readState (s.effAddr rs1 imm) = some w) :
    exec (.lds rd rs1 imm) s = .next (s.setReg rd w) := by
  simp [exec, execLds, h]

theorem exec_lds_of_none (h : s.readState (s.effAddr rs1 imm) = none) :
    exec (.lds rd rs1 imm) s = .next (faultOf (.lds rd rs1 imm) .badAddr s) := by
  simp [exec, execLds, h]

theorem exec_sts_of_ok (h : s.writeState (s.effAddr rs1 imm) (s.reg rd) = .ok t) :
    exec (.sts rd rs1 imm) s = .next t := by
  simp [exec, execSts, h]

theorem exec_sts_of_error (h : s.writeState (s.effAddr rs1 imm) (s.reg rd) = .error c) :
    exec (.sts rd rs1 imm) s = .next (faultOf (.sts rd rs1 imm) c s) := by
  simp [exec, execSts, h]

theorem exec_ldb_of_some {a : Nat} (h : bufLoc s.cfg (s.effAddr rs1 imm) = some a) :
    exec (.ldb rd rs1 imm) s = .next (s.setReg rd (s.bufRead a)) := by
  simp [exec, execLdb, h]

theorem exec_ldb_of_none (h : bufLoc s.cfg (s.effAddr rs1 imm) = none) :
    exec (.ldb rd rs1 imm) s = .next (faultOf (.ldb rd rs1 imm) .badAddr s) := by
  simp [exec, execLdb, h]

theorem exec_stb_of_some {a : Nat} (h : bufLoc s.cfg (s.effAddr rs1 imm) = some a) :
    exec (.stb rd rs1 imm) s = .next (s.bufWrite a (s.reg rd)) := by
  simp [exec, execStb, h]

theorem exec_stb_of_none (h : bufLoc s.cfg (s.effAddr rs1 imm) = none) :
    exec (.stb rd rs1 imm) s = .next (faultOf (.stb rd rs1 imm) .badAddr s) := by
  simp [exec, execStb, h]

theorem exists_faultedBy_of_exec {word : Word} (hi : encode i = word) (hx : exec i s = .next (faultOf i c s)) :
    ∃ t, exec i s = .next t ∧ FaultedBy word (causeCode c) s t :=
  ⟨_, hx, faultedBy_of_encode_eq hi c s⟩

/-! The state space (R281, R282). -/

/-- Settles O47: STS's write is the write to the state space, whose two refusals are its two causes. -/
theorem storeStateWord : Obligations.StoreStateWord := by
  rintro s rd rs1 imm a rfl
  refine ⟨decode_of_encode_eq rfl rfl, fun h => ?_, fun h hw => ?_, fun h hw => ?_⟩
  · exact exists_faultedBy_of_exec rfl (exec_sts_of_error (writeState_of_unwritable s _ h))
  · exact exists_faultedBy_of_exec rfl (exec_sts_of_error (writeState_of_illegalValue s h hw))
  · obtain ⟨t, ht, hst⟩ := writeState_of_legal s h hw
    exact ⟨t, exec_sts_of_ok ht, hst⟩

/-- Settles O46: LDS reads the state space, which has a word exactly at the readable addresses. -/
theorem loadStateWord : Obligations.LoadStateWord := by
  rintro s rd rs1 imm a rfl
  refine ⟨decode_of_encode_eq rfl rfl, fun h => ?_, fun h => ?_⟩
  · exact exists_faultedBy_of_exec rfl (exec_lds_of_none (State.readState_eq_none_iff.mpr h))
  · obtain ⟨w, hw⟩ := Option.ne_none_iff_exists'.mp (mt State.readState_eq_none_iff.mp h)
    exact ⟨_, w, exec_lds_of_some hw, hw, wrote_setReg s rd w⟩

/-! BUF (R283, R284). -/

theorem bufLoc_of_inside {c : Config} {a : Int} (h0 : 0 ≤ a) (h1 : a < c.bufWords) : bufLoc c a = some a.toNat :=
  if_pos ⟨h0, h1⟩

theorem bufLoc_of_outside {c : Config} {a : Int} (h : a < 0 ∨ c.bufWords ≤ a) : bufLoc c a = none :=
  h.elim (fun hneg => if_neg fun ⟨h0, _⟩ => Int.not_lt.mpr h0 hneg) bufLoc_eq_none_of_le

/-- Settles O48: an address outside the RAM names no word of BUF, and one inside it names the word that LDB reads and
STB writes. -/
theorem bufferAccess : Obligations.BufferAccess := by
  rintro s rd rs1 imm a rfl
  refine ⟨decode_of_encode_eq rfl rfl, decode_of_encode_eq rfl rfl, fun h => ?_, fun h0 h1 => ?_⟩
  · have hloc := bufLoc_of_outside h
    exact ⟨exists_faultedBy_of_exec rfl (exec_ldb_of_none hloc), exists_faultedBy_of_exec rfl (exec_stb_of_none hloc)⟩
  · have hloc := bufLoc_of_inside h0 h1
    exact ⟨⟨_, exec_ldb_of_some hloc, wrote_setReg s rd _⟩, ⟨_, exec_stb_of_some hloc, storedBuf_bufWrite s _ _⟩⟩

end Sys2Proof.Machine
end

section
/-! PROOF. Faults and the mode (60_exceptions.md R300 to R305), and the configuration (70_reset_and_hazards.md R333): an
interaction of the host either takes a fault, resets, or leaves the mode, FCAUSE and FAULTCMD alone. -/

namespace Sys2Proof.Machine

open Sys2Proof

variable {i : Instr} {s t : State} {r : HostRequest}

/-- What the block keeps of a fault is in t as in s (60_exceptions.md R300). -/
structure SameFault (s t : State) : Prop where
  mode : t.mode = s.mode
  fcause : t.fcause = s.fcause
  faultcmd : t.faultcmd = s.faultcmd

theorem SameFault.of_writeLoc {l : StateLoc} {w : Word} (h : s.writeLoc l w = .ok t) : SameFault s t := by
  obtain ⟨-, -, -, -, mode, -, -, -, fcause, faultcmd, -⟩ := writeLoc_frame h
  exact ⟨mode, fcause, faultcmd⟩

theorem cfg_of_writeLoc {l : StateLoc} {w : Word} (h : s.writeLoc l w = .ok t) : t.cfg = s.cfg := by
  obtain ⟨-, -, -, cfg, -⟩ := writeLoc_frame h
  exact cfg

/-! Commands. -/

/-- A command that has a word either faults with a cause of its own, or touches nothing of the fault state. -/
theorem Effect.fault_or_sameFault (h : Effect i s t) (hwf : i.wf = true) :
    (∃ c, causeCode c ∈ i.causes ∧ t = faultOf i c s) ∨ SameFault s t := by
  cases h with
  | fault c hc => exact .inl ⟨c, hc, rfl⟩
  | quad rs1 vi hi hquad =>
    subst hi
    exact absurd hwf (Bool.eq_false_iff.mp hquad)
  | run _ _ _ _ _ _ _ u hu w =>
    right
    rw [hu.rest]
    exact ⟨rfl, rfl, rfl⟩
  | sts _ _ _ _ l _ ht => exact .inr (.of_writeLoc ht)
  | _ => exact .inr ⟨rfl, rfl, rfl⟩

theorem Effect.cfg_eq (h : Effect i s t) : t.cfg = s.cfg := by
  cases h with
  | run _ _ _ _ _ _ _ u hu => exact hu.cfg
  | sts _ _ _ _ l _ ht => exact cfg_of_writeLoc ht
  | _ => rfl

/-- Settles O54: a delivered word is the word of the command it decodes to, and that command faults with a cause of its
own or leaves the block READY. -/
theorem faultsArePrecise : Obligations.FaultsArePrecise := by
  intro s t w i hm hd h
  rw [runCommand_of_decode hm hd] at h
  obtain ⟨-, hwf⟩ := decodeFields_sound hd
  obtain ⟨c, hc, rfl⟩ | same := (Effect.of_exec h).fault_or_sameFault hwf
  · refine ⟨fun _ => ⟨_, hc, faultedBy_of_encode_eq (encode_of_decode hd) c s⟩, fun hready => ?_, fun hnone => ?_⟩
    · cases hready
    · rw [hnone] at hc
      cases hc
  · have hready : t.mode = .ready := same.mode.trans hm
    refine ⟨fun hfaulted => ?_, fun _ => ⟨same.fcause, same.faultcmd⟩, fun _ => hready⟩
    rw [hready] at hfaulted
    cases hfaulted

theorem runCommand_of_faulted (hm : s.mode = .faulted) (w : Word) : runCommand w s = .next s := by
  simp [runCommand, hm]

theorem runCommand_cfg {w : Word} (h : runCommand w s = .next t) : t.cfg = s.cfg := by
  cases hm : s.mode with
  | faulted => cases (runCommand_of_faulted hm w).symm.trans h; rfl
  | ready =>
    cases hd : decode w with
    | ok i => exact (Effect.of_exec ((runCommand_of_decode hm hd).symm.trans h)).cfg_eq
    | error e => cases (runCommand_of_decode_error hm hd).symm.trans h; rfl

/-! The host bus (20_memory.md R69). -/

theorem State.busRead_frame (s : State) (sp : Space) (a : Word) :
    SameFault s (s.busRead sp a) ∧ (s.busRead sp a).cfg = s.cfg := by
  obtain ⟨v, hv, -⟩ := s.busRead_reply sp a
  rw [hv]
  exact ⟨⟨rfl, rfl, rfl⟩, rfl⟩

theorem State.busWrite_frame (s : State) (sp : Space) (a w : Word) :
    SameFault s (s.busWrite sp a w) ∧ (s.busWrite sp a w).cfg = s.cfg := by
  cases sp with
  | state =>
    cases h : s.writeState (uint a) w with
    | error c => rw [busWrite_state_of_error h]; exact ⟨⟨rfl, rfl, rfl⟩, rfl⟩
    | ok t =>
      rw [busWrite_state_of_ok h]
      obtain ⟨l, -, hl⟩ := writeState_loc h
      exact ⟨.of_writeLoc hl, cfg_of_writeLoc hl⟩
  | buf =>
    simp only [State.busWrite]
    split <;> exact ⟨⟨rfl, rfl, rfl⟩, rfl⟩

/-! Every interaction. -/

theorem serve_sameFault_of_faulted (hm : s.mode = .faulted) (h : serve r s = .next t) (hr : r ≠ .reset) :
    SameFault s t := by
  cases r with
  | command w => cases (runCommand_of_faulted hm w).symm.trans h; exact ⟨rfl, rfl, rfl⟩
  | busRead sp a => cases h; exact (s.busRead_frame sp a).1
  | busWrite sp a w => cases h; exact (s.busWrite_frame sp a w).1
  | reset => exact absurd rfl hr

theorem serve_cfg (h : serve r s = .next t) : t.cfg = s.cfg := by
  cases r with
  | command w => exact runCommand_cfg h
  | busRead sp a => cases h; exact (s.busRead_frame sp a).2
  | busWrite sp a w => cases h; exact (s.busWrite_frame sp a w).2
  | reset => cases h; rfl

/-- Settles O55: a command is discarded, the host bus touches nothing of the fault state, and a reset loads READY. -/
theorem faultedUntilReset : Obligations.FaultedUntilReset := by
  intro s t r hm h
  refine ⟨?_, fun hr => ?_, ?_⟩
  · rintro w rfl
    cases (runCommand_of_faulted hm w).symm.trans h
    rfl
  · have same := serve_sameFault_of_faulted hm h hr
    exact ⟨same.mode.trans hm, same.fcause, same.faultcmd⟩
  · rintro rfl
    cases h
    rfl

/-- Settles O57: a step is idle or serves one interaction, and none of them, reset included, changes the
configuration. -/
theorem configurationIsFixed : Obligations.ConfigurationIsFixed := by
  intro s t h
  cases hh : s.host with
  | nil =>
    rw [step_of_host_nil hh] at h
    cases h
    rfl
  | cons r rest =>
    rw [step_of_host_cons hh] at h
    have hcfg := serve_cfg h
    exact hcfg

end Sys2Proof.Machine
end
